-- ==== Sys2Proof/Word.lean ====
section
/-! DEFINITION. The widths of 00_scope.md R9, R11 and R12: bytes, 16-bit and 32-bit values, byte strings. -/

namespace Sys2Proof

/-- `Byte` of R11: an unsigned 8-bit value. -/
abbrev Byte := BitVec 8

/-- `UInt16` of R11: the checksum's width. -/
abbrev Half := BitVec 16

/-- `UInt32` of R11: the width of every numeric register (R9). -/
abbrev Word := BitVec 32

/-- `ByteStr` of R12: a finite sequence of bytes, index 0 first on the wire. -/
abbrev ByteStr := List Byte

end Sys2Proof
end

