-- ==== Sys2Proof/Machine/Ports.lean ====
section
/-! DEFINITION. The alphabets of the engine's ports (10_state.md R31 to R33) and of its trace (R36). -/

namespace Sys2Proof.Machine

/-- The source port's answers to `SrcOpen()` (R32). -/
inductive OpenAnswer where
  | ok
  | notFound
  deriving DecidableEq, Repr, Inhabited

/-- The source port's answers to `SrcRead(n)` (R32): the next `n` bytes, the end of the stream, or a failure. -/
inductive ReadAnswer where
  | data (bytes : ByteStr)
  | eos
  | ioerr
  deriving DecidableEq, Repr, Inhabited

/-- The transport port's answers to `TxWrite(s)` (R31). -/
inductive WriteAnswer where
  | ok
  | timeout
  | ioerr
  deriving DecidableEq, Repr, Inhabited

/-- The transport port's answers to `RxRead()` (R31). -/
inductive RxAnswer where
  | byte (b : Byte)
  | timeout
  | ioerr
  deriving DecidableEq, Repr, Inhabited

/-- The host command port's two strobes with their parallel operand fields (R33; 30_encoding.md R82):
`LEN[31:0]`, `ADDR[31:0]`, `TERM[0]`. -/
inductive Command where
  | start (len addr : Word) (term : BitVec 1)
  | reset
  deriving DecidableEq, Repr

/-- The events of the trace (R36). -/
inductive Event where
  | start (len addr : Word) (term : Bool)
  | reset
  | opened (a : OpenAnswer)
  | read (n : Nat) (a : ReadAnswer)
  | tx (f : ByteStr) (a : WriteAnswer)
  | rx (a : RxAnswer)
  | purgeIn
  | purgeOut
  | progress (p : Nat)
  deriving DecidableEq, Repr

end Sys2Proof.Machine
end

