-- ==== Sys2Proof/Config.lean ====
section
/-! DEFINITION. The fixed constants of 00_scope.md R7, the open parameters of R8, and the free values of the model.
Every `opaque` below has no body: no proof can see its value, so a statement holds whatever the value is. -/

namespace Sys2Proof.Config

/-- Maximum payload bytes per data frame, and the chunk size of the transfer (R7). -/
def CHUNK_SIZE : Nat := 1024

/-- The announce frame's marker (R7). -/
def MARK_ANNOUNCE : ByteStr := [0xFE, 0x00, 0xFF, 0x01]

/-- The data frame's marker (R7). -/
def MARK_DATA : Byte := 0xDA

/-- The terminate frame's marker (R7). -/
def MARK_TERM : Byte := 0xED

/-- The only acknowledgment value meaning success (R7). -/
def ACK_OK : Byte := 0xAA

/-- The progress cadence switches when `frameCount` is above this (R7). -/
def CADENCE_THRESHOLD : Nat := 250

/-- Report every so many data frames above the threshold (R7). -/
def CADENCE_LARGE : Nat := 10

/-- Report every so many data frames otherwise (R7). -/
def CADENCE_SMALL : Nat := 3

/-- Bit rate of the serial transport; informative, the engine does not use it (R7). -/
def LINE_RATE : Nat := 115200

/-- The largest frame: 5 + 1024 bytes, the size of `frameBuf` (R10, R26). -/
def FRAME_BUF_SIZE : Nat := 1029

/-- The checksum function, open parameter of R8(a): total, pure, 16 bits (R91) and nothing else assumed.
DEDUCED, log 6, safe. -/
opaque CHECKSUM16 : ByteStr → Half

/-- The bound on the acknowledgment wait, open parameter of R8(b). It acts only through the transport's `TIMEOUT`
answers (R116), so no definition of the engine reads it. DEDUCED, log 7, safe. -/
opaque ACK_TIMEOUT : Nat

/-- The bound on a frame write, open parameter of R8(b); as `ACK_TIMEOUT`. DEDUCED, log 7, safe. -/
opaque WRITE_TIMEOUT : Nat

/-- FREE VALUE: the source's `k`-th freely drawn answer to `SrcOpen()` (R13). DESIGN CHOICE, log 1, safe. -/
opaque freeOpen : Nat → Machine.OpenAnswer

/-- FREE VALUE: the source's freely drawn answer to `SrcRead(n)` (R13). DESIGN CHOICE, log 1, safe. -/
opaque freeRead : Nat → Nat → Machine.ReadAnswer

/-- FREE VALUE: the transport's freely drawn answer to `TxWrite` (R13). DESIGN CHOICE, log 1, safe. -/
opaque freeWrite : Nat → Machine.WriteAnswer

/-- FREE VALUE: the transport's freely drawn answer to `RxRead()` (R13). DESIGN CHOICE, log 1, safe. -/
opaque freeRx : Nat → Machine.RxAnswer

/-- FREE VALUE: byte `i` of `frameBuf` after the RESET that made draw `k` (10_state.md R39: "unspecified").
DESIGN CHOICE, log 5, safe. -/
opaque freeBufByte : Nat → Nat → Byte

end Sys2Proof.Config
end

