-- ==== Sys2Proof/Machine/Operands.lean ====
section
/-! DEFINITION. Operand assembly: the byte-order and arithmetic primitives of 00_scope.md R11 and R12, and the frame
bodies of 30_encoding.md R70 to R76. -/

namespace Sys2Proof.Machine

/-- `lo8(v) = v mod 256` (R11). -/
def lo8 (v : Word) : Byte := v.setWidth 8

/-- `cpl8(v) = 255 - lo8(v)` on a byte (R11). -/
def cpl8 (b : Byte) : Byte := 255#8 - b

/-- Big-endian serialisation of 16 bits (R12). -/
def be16 (v : Half) : ByteStr := [v.extractLsb' 8 8, v.extractLsb' 0 8]

/-- Big-endian serialisation of 32 bits (R12). -/
def be32 (v : Word) : ByteStr :=
  [v.extractLsb' 24 8, v.extractLsb' 16 8, v.extractLsb' 8 8, v.extractLsb' 0 8]

/-- Two bytes read big-endian. -/
def ofBe16 (b1 b0 : Byte) : Half := b1 ++ b0

/-- Four bytes read big-endian (R71, R104(b)). -/
def ofBe32 (b3 b2 b1 b0 : Byte) : Word := b3 ++ b2 ++ b1 ++ b0

/-- `ceil_div(a, b)` for `b > 0` (R11). -/
def ceilDiv (a b : Nat) : Nat := (a + b - 1) / b

/-- The size of the next chunk, `min(1024, remaining)` (43_transfer.md R124). -/
def chunkLen (remaining : Word) : Nat := min Config.CHUNK_SIZE remaining.toNat

/-- `frameCount` of a request (43_transfer.md R121). -/
def frameCountOf (len : Word) : Word := BitVec.ofNat 32 (ceilDiv len.toNat Config.CHUNK_SIZE)

/-- Bytes 0 to 11 of an announce frame (R70, R71). -/
def announceBody (totalLength address : Word) : ByteStr :=
  Config.MARK_ANNOUNCE ++ be32 totalLength ++ be32 address

/-- Bytes 0 to 2+n of a data frame, with its two header bytes (R72). -/
def dataBytes (seq nseq : Byte) (payload : ByteStr) : ByteStr :=
  Config.MARK_DATA :: seq :: nseq :: payload

/-- Bytes 0 to 2 of a terminate frame, with its two header bytes (R74). -/
def terminateBytes (seq nseq : Byte) : ByteStr := [Config.MARK_TERM, seq, nseq]

/-- The body of the data frame the builder makes: `NSEQ = cpl8(SEQ)` (R73). -/
def dataBody (seq : Byte) (payload : ByteStr) : ByteStr := dataBytes seq (cpl8 seq) payload

/-- The body of the terminate frame the builder makes (R75). -/
def terminateBody (seq : Byte) : ByteStr := terminateBytes seq (cpl8 seq)

/-- The checksum of a byte string (40_checksum.md R90). -/
def checksumOf (bytes : ByteStr) : Half := Config.CHECKSUM16 bytes

/-- A body followed by its checksum, big-endian (R76). -/
def withChecksum (body : ByteStr) : ByteStr := body ++ be16 (checksumOf body)

end Sys2Proof.Machine
end

