-- ==== Sys2Proof/Syntax.lean ====
section
/-! DEFINITION. The instruction set (00_scope.md R3): one constructor per row of opcode_table.json. -/

namespace Sys2Proof

/-- The engine's operations, the wire frames it emits, the acknowledgment bytes it decodes, the host's commands. -/
inductive Instr where
  /-- FRAME_ANNOUNCE (30_encoding.md R70): `LEN`, `ADDR`, `CK`. -/
  | frameAnnounce (len addr : Word) (ck : Half)
  /-- FRAME_DATA (R72): `SEQ`, `NSEQ`, `PAYLOAD`, `CK`. -/
  | frameData (seq nseq : Byte) (payload : ByteStr) (ck : Half)
  /-- FRAME_TERMINATE (R74): `SEQ`, `NSEQ`, `CK`. -/
  | frameTerminate (seq nseq : Byte) (ck : Half)
  /-- ACK_OK (R80): the byte `0xAA`. -/
  | ackOk
  /-- ACK_OTHER (R80): any other byte, the field `V`. -/
  | ackOther (v : Byte)
  /-- START (R82; 43_transfer.md R120). -/
  | start (len addr : Word) (term : Bool)
  /-- RESET (R82; 70_reset_and_hazards.md R180). -/
  | reset
  /-- CHECKSUM (40_checksum.md R90). -/
  | checksum (bytes : ByteStr)
  /-- BUILD_ANNOUNCE (41_frame_builder.md R100). -/
  | buildAnnounce (totalLength address : Word)
  /-- BUILD_DATA (R101). -/
  | buildData (sequenceNumber : Byte) (payload : ByteStr)
  /-- BUILD_TERMINATE (R102). -/
  | buildTerminate (sequenceNumber : Byte)
  /-- SEND_AND_AWAIT_ACK (42_handshake.md R110); its operand is the frame in `frameBuf`. -/
  | sendAndAwaitAck
  /-- READ_CHUNK (43_transfer.md R124). -/
  | readChunk
  /-- REPORT_PROGRESS (R126, R129). -/
  | reportProgress
  deriving DecidableEq, Repr

end Sys2Proof
end

