-- ==== Sys2Proof/Decode.lean ====
section
/-! DEFINITION. The decoder, total on any bytes, and after it the encoder, both from the byte tables of 30_encoding.md
(R70 to R80). Two byte streams carry encodings (20_memory.md R50): frames on the transmit stream, acknowledgment bytes
on the receive stream. The host's commands are strobes with parallel operand fields (R82); the internal operations have
no encoding (opcode_table.json). The split by stream, and that the complement byte and the checksum are kept as fields and
checked by WellFormed, are a DESIGN CHOICE, log 14, safe. -/

namespace Sys2Proof

open Machine

/-- The byte streams that carry encodings (20_memory.md R50(b), (c)). -/
inductive Stream where
  | transmit
  | receive
  deriving DecidableEq, Repr

/-- Why bytes are no encoding of the spec (R81). -/
inductive DecodeError where
  /-- No byte at all. -/
  | empty
  /-- The first byte is none of `FE`, `DA`, `ED` (R78, R81). -/
  | unknownMarker
  /-- It begins `FE` but not `FE 00 FF 01` (R70, R81). -/
  | badAnnounceMarker
  /-- The length is not one the frame kind admits (R70, R72, R74). -/
  | badLength
  /-- A data frame with more than 1024 payload bytes (R72, R81). -/
  | payloadTooLong
  /-- The receive stream is read one byte at a time (20_memory.md R58). -/
  | notOneByte
  deriving DecidableEq, Repr

/-- The announce frame's table (R70). -/
def decodeAnnounce (bs : ByteStr) : Except DecodeError Instr :=
  match bs with
  | [m0, m1, m2, m3, l3, l2, l1, l0, a3, a2, a1, a0, c1, c0] =>
    if [m0, m1, m2, m3] = Config.MARK_ANNOUNCE then
      .ok (.frameAnnounce (ofBe32 l3 l2 l1 l0) (ofBe32 a3 a2 a1 a0) (ofBe16 c1 c0))
    else .error .badAnnounceMarker
  | _ => .error .badLength

/-- The data frame's table (R72) on the bytes after the marker: `SEQ`, `NSEQ`, the payload, and the checksum in the last
two bytes. No field holds the payload's length (R73). -/
def decodeData (bs : ByteStr) : Except DecodeError Instr :=
  match bs with
  | seq :: nseq :: tail =>
    match tail.drop (tail.length - 2) with
    | [c1, c0] =>
      if tail.length - 2 ≤ Config.CHUNK_SIZE then
        .ok (.frameData seq nseq (tail.take (tail.length - 2)) (ofBe16 c1 c0))
      else .error .payloadTooLong
    | _ => .error .badLength
  | _ => .error .badLength

/-- The terminate frame's table (R74) on the bytes after the marker. -/
def decodeTerminate (bs : ByteStr) : Except DecodeError Instr :=
  match bs with
  | [seq, nseq, c1, c0] => .ok (.frameTerminate seq nseq (ofBe16 c1 c0))
  | _ => .error .badLength

/-- A frame of the transmit stream: its first byte selects its kind (R78). -/
def decodeFrame (bs : ByteStr) : Except DecodeError Instr :=
  match bs with
  | [] => .error .empty
  | b :: rest =>
    if some b = Config.MARK_ANNOUNCE.head? then decodeAnnounce bs
    else if b = Config.MARK_DATA then decodeData rest
    else if b = Config.MARK_TERM then decodeTerminate rest
    else .error .unknownMarker

/-- An acknowledgment byte: `0xAA` is ACK_OK, every other value ACK_OTHER (R80). -/
def decodeAck (b : Byte) : Instr := if b = Config.ACK_OK then .ackOk else .ackOther b

/-- The decoder, total on the bytes of either stream. -/
def decode (st : Stream) (bs : ByteStr) : Except DecodeError Instr :=
  match st with
  | .transmit => decodeFrame bs
  | .receive =>
    match bs with
    | [] => .error .empty
    | [b] => .ok (decodeAck b)
    | _ => .error .notOneByte

/-- The instruction a host strobe stands for (R82): `TERM = 1` asks for the terminate frame. -/
def decodeCommand (c : Command) : Instr :=
  match c with
  | .start len addr term => .start len addr (decide (term = 1#1))
  | .reset => .reset

/-- The encoder, from the same byte tables (R70, R72, R74, R80); `none` where the spec gives no encoding in bytes. -/
def encode (i : Instr) : Option (Stream × ByteStr) :=
  match i with
  | .frameAnnounce len addr ck => some (.transmit, announceBody len addr ++ be16 ck)
  | .frameData seq nseq payload ck => some (.transmit, dataBytes seq nseq payload ++ be16 ck)
  | .frameTerminate seq nseq ck => some (.transmit, terminateBytes seq nseq ++ be16 ck)
  | .ackOk => some (.receive, [Config.ACK_OK])
  | .ackOther v => some (.receive, [v])
  | .start _ _ _ => none
  | .reset => none
  | .checksum _ => none
  | .buildAnnounce _ _ => none
  | .buildData _ _ => none
  | .buildTerminate _ => none
  | .sendAndAwaitAck => none
  | .readChunk => none
  | .reportProgress => none

/-- The strobe that stands for a host command (R82); `none` for what is no host command. -/
def encodeCommand (i : Instr) : Option Command :=
  match i with
  | .start len addr term => some (.start len addr (BitVec.ofBool term))
  | .reset => some .reset
  | .frameAnnounce _ _ _ => none
  | .frameData _ _ _ _ => none
  | .frameTerminate _ _ _ => none
  | .ackOk => none
  | .ackOther _ => none
  | .checksum _ => none
  | .buildAnnounce _ _ => none
  | .buildData _ _ => none
  | .buildTerminate _ => none
  | .sendAndAwaitAck => none
  | .readChunk => none
  | .reportProgress => none

/-- `k` bytes of a number, the least significant first. -/
def leBytes (k w : Nat) : ByteStr :=
  match k with
  | 0 => []
  | k + 1 => BitVec.ofNat 8 w :: leBytes k (w / 256)

/-- A byte string lengthened with zero bytes to at least `n`. -/
def padTo (n : Nat) (bs : ByteStr) : ByteStr := bs ++ List.replicate (n - bs.length) 0

/-- The bytes of a word numbered as opcode_table.json numbers it: FRAME_ANNOUNCE's match is its bytes 0 to 3 read as ONE
big-endian 32-bit value; every other row's is byte 0, later bytes counting on. A word that begins like a frame is
lengthened with zero bytes to that frame's shortest form. DESIGN CHOICE, log 15. -/
def tableBytes (nbits w : Nat) : ByteStr :=
  if 32 ≤ nbits ∧ be32 (BitVec.ofNat 32 w) = Config.MARK_ANNOUNCE then
    padTo 14 (Config.MARK_ANNOUNCE ++ leBytes (nbits / 8 - 4) (w / 2 ^ 32))
  else
    let bs := leBytes (nbits / 8) w
    match bs with
    | [] => []
    | b :: _ => if b = Config.MARK_DATA ∨ b = Config.MARK_TERM then padTo 5 bs else bs

/-- The instruction the decoder reads from a word numbered as opcode_table.json numbers it: one byte is an
acknowledgment, more are a frame. -/
def decodeTableWord (nbits w : Nat) : Option Instr :=
  match tableBytes nbits w with
  | [b] => some (decodeAck b)
  | bs => (decodeFrame bs).toOption

end Sys2Proof
end

