-- ==== Sys2Proof/Machine/State.lean ====
section
/-! DEFINITION. The engine's state as plain data: the registers of 10_state.md R21 to R27, and the model's own fields,
the trace of R36 and the environment's coming answers (R30 to R33). Reset values: R39. -/

namespace Sys2Proof.Machine

/-- The values of the state register `st` (R21), in the order of their codes 0 to 12. Codes 13, 14 and 15 are never held
(R21). DEDUCED, log 20, safe. -/
inductive St where
  | idle
  | opening
  | aSend
  | aWait
  | dRead
  | dSend
  | dWait
  | dReport
  | fReport
  | tSend
  | tWait
  | done
  | fault
  deriving DecidableEq, Repr, Inhabited

/-- The fault kinds the engine takes (60_exceptions.md R150), in the order of their codes 1 to 7. -/
inductive FaultKind where
  | ackTimeout
  | unexpectedAck
  | transportIo
  | writeTimeout
  | sourceNotFound
  | sourceRead
  | invalidArgument
  deriving DecidableEq, Repr

/-- The fault classes (60_exceptions.md R151). -/
inductive FaultClass where
  | protocol
  | transport
  | source
  | argument
  deriving DecidableEq, Repr

/-- The state. The registers of R21 to R27 come first; everything from `trace` on is the model's own. -/
structure State where
  /-- R21. -/
  st : St
  /-- R22. -/
  reqLength : Word
  /-- R22. -/
  reqAddress : Word
  /-- R22. -/
  reqTerm : Bool
  /-- R23. -/
  frameCount : Word
  /-- R24. -/
  frameNumber : Word
  /-- R25. -/
  remaining : Word
  /-- R26: 1029 bytes. The length is an invariant (DESIGN CHOICE, log 26, safe). -/
  frameBuf : ByteStr
  /-- R26: 0 to 1029. -/
  frameLen : Nat
  /-- R27. -/
  faultCode : BitVec 3
  /-- R27. -/
  faultValue : Byte
  /-- R27. -/
  faultAt : BitVec 4
  /-- The trace, oldest event first (R36). DESIGN CHOICE, log 3, safe. -/
  trace : List Event
  /-- The host command port's coming instants (R33): at each, no command or one. DESIGN CHOICE, log 2, safe. -/
  hostIn : List (Option Command)
  /-- The coming answers to `SrcOpen` (R32). DESIGN CHOICE, log 1, safe. -/
  openIn : List OpenAnswer
  /-- The coming answers to `SrcRead` (R32). DESIGN CHOICE, log 1, safe. -/
  readIn : List ReadAnswer
  /-- The coming answers to `TxWrite` (R31). DESIGN CHOICE, log 1, safe. -/
  txIn : List WriteAnswer
  /-- The coming answers to `RxRead` (R31). DESIGN CHOICE, log 1, safe. -/
  rxIn : List RxAnswer
  /-- How many free values have been drawn. DESIGN CHOICE, log 1, safe. -/
  freeCount : Nat
  /-- What the last CHECKSUM called on its own gave its caller (40_checksum.md R90). DESIGN CHOICE, log 13, safe. -/
  checksumResult : Option Half
  deriving DecidableEq, Repr

/-- Faults of the MODEL: none. Every fault of 60_exceptions.md R150 is taken by the engine, a next state in which `st` is
FAULT; no meaning stops the machine. -/
inductive Fault where
  deriving DecidableEq, Repr

/-- Refusals of the MODEL. -/
inductive Refusal where
  /-- Raised by an arm of `exec` whose instruction has no meaning yet; no arm is such an arm. Safe. -/
  | notModelled (mnemonic : String)
  deriving DecidableEq, Repr

/-- The machine after reset and at power-on (R39; 70_reset_and_hazards.md R182). `frameBuf` is unspecified there: 1029
zero bytes are a DESIGN CHOICE, log 4, unsafe. The model's own fields are empty: DESIGN CHOICE, log 23, unsafe. -/
def State.reset : State where
  st := .idle
  reqLength := 0
  reqAddress := 0
  reqTerm := false
  frameCount := 0
  frameNumber := 0
  remaining := 0
  frameBuf := List.replicate Config.FRAME_BUF_SIZE 0
  frameLen := 0
  faultCode := 0
  faultValue := 0
  faultAt := 0
  trace := []
  hostIn := []
  openIn := []
  readIn := []
  txIn := []
  rxIn := []
  freeCount := 0
  checksumResult := none

end Sys2Proof.Machine
end

