-- ==== Sys2Proof/Machine/Ops.lean ====
section
/-! DEFINITION. The named operations over the registers: the trace (10_state.md R36), the environment's answers (R31,
R32), the frame buffer (41_frame_builder.md R103), TAKING A FAULT (60_exceptions.md R152), and what leaves it (R156):
the START latches (43_transfer.md R120) and the reset of the registers (70_reset_and_hazards.md R180). -/

namespace Sys2Proof.Machine

/-- The codes of `st` (R21). -/
def St.code (x : St) : BitVec 4 :=
  match x with
  | .idle => 0
  | .opening => 1
  | .aSend => 2
  | .aWait => 3
  | .dRead => 4
  | .dSend => 5
  | .dWait => 6
  | .dReport => 7
  | .fReport => 8
  | .tSend => 9
  | .tWait => 10
  | .done => 11
  | .fault => 12

/-- The states without a step of their own (43_transfer.md R131). -/
def St.isRest (x : St) : Bool :=
  match x with
  | .idle | .done | .fault => true
  | .opening | .aSend | .aWait | .dRead | .dSend | .dWait | .dReport | .fReport | .tSend | .tWait => false

/-- The `X_WAIT` entered when the frame of `X_SEND` is written (42_handshake.md R111); `none` outside `X_SEND`. -/
def St.afterSend (x : St) : Option St :=
  match x with
  | .aSend => some .aWait
  | .dSend => some .dWait
  | .tSend => some .tWait
  | .idle | .opening | .aWait | .dRead | .dWait | .dReport | .fReport | .tWait | .done | .fault => none

/-- `next(X)`, entered when the frame of `X_WAIT` is acknowledged (42_handshake.md R112); `none` outside `X_WAIT`. -/
def St.afterAck (x : St) : Option St :=
  match x with
  | .aWait => some .dRead
  | .dWait => some .dReport
  | .tWait => some .done
  | .idle | .opening | .aSend | .dRead | .dSend | .dReport | .fReport | .tSend | .done | .fault => none

/-- The fault codes (60_exceptions.md R150). -/
def FaultKind.code (k : FaultKind) : BitVec 3 :=
  match k with
  | .ackTimeout => 1
  | .unexpectedAck => 2
  | .transportIo => 3
  | .writeTimeout => 4
  | .sourceNotFound => 5
  | .sourceRead => 6
  | .invalidArgument => 7

/-- The class of a fault kind (60_exceptions.md R150, R151). -/
def FaultKind.cls (k : FaultKind) : FaultClass :=
  match k with
  | .ackTimeout | .unexpectedAck => .protocol
  | .transportIo | .writeTimeout => .transport
  | .sourceNotFound | .sourceRead => .source
  | .invalidArgument => .argument

/-- `st <- S`. -/
def State.setSt (x : St) (s : State) : State := { s with st := x }

/-- Append an event to the trace (R36). -/
def State.emit (e : Event) (s : State) : State := { s with trace := s.trace ++ [e] }

/-- The command at this instant of the host port, if there is one. -/
def State.command (s : State) : Option Command := s.hostIn.head?.join

/-- The state after this instant of the host port. -/
def State.afterHost (s : State) : State := { s with hostIn := s.hostIn.tail }

/-- The source's answer to `SrcOpen()`: the next listed one, else a free value (R13). -/
def State.openAnswer (s : State) : OpenAnswer :=
  match s.openIn with
  | [] => Config.freeOpen s.freeCount
  | a :: _ => a

/-- The state once the answer to `SrcOpen()` is consumed. -/
def State.afterOpen (s : State) : State :=
  match s.openIn with
  | [] => { s with freeCount := s.freeCount + 1 }
  | _ :: rest => { s with openIn := rest }

/-- An answer to `SrcRead(n)` as R32 allows it: `DATA` has exactly `n` bytes, and a stream that ends before `n` bytes is
`EOS`. DESIGN CHOICE, log 8, safe. -/
def conformRead (n : Nat) (a : ReadAnswer) : ReadAnswer :=
  match a with
  | .data bytes => if n ≤ bytes.length then .data (bytes.take n) else .eos
  | .eos => .eos
  | .ioerr => .ioerr

/-- The source's answer to `SrcRead(n)`: the next listed one, else a free value (R13, R32). -/
def State.readAnswer (n : Nat) (s : State) : ReadAnswer :=
  match s.readIn with
  | [] => conformRead n (Config.freeRead s.freeCount n)
  | a :: _ => conformRead n a

/-- The state once the answer to `SrcRead` is consumed. -/
def State.afterRead (s : State) : State :=
  match s.readIn with
  | [] => { s with freeCount := s.freeCount + 1 }
  | _ :: rest => { s with readIn := rest }

/-- The transport's answer to `TxWrite`: the next listed one, else a free value (R13). -/
def State.txAnswer (s : State) : WriteAnswer :=
  match s.txIn with
  | [] => Config.freeWrite s.freeCount
  | a :: _ => a

/-- The state once the answer to `TxWrite` is consumed. -/
def State.afterTx (s : State) : State :=
  match s.txIn with
  | [] => { s with freeCount := s.freeCount + 1 }
  | _ :: rest => { s with txIn := rest }

/-- The transport's answer to `RxRead()`: the next listed one, else a free value (R13). -/
def State.rxAnswer (s : State) : RxAnswer :=
  match s.rxIn with
  | [] => Config.freeRx s.freeCount
  | a :: _ => a

/-- The state once the answer to `RxRead()` is consumed. -/
def State.afterRx (s : State) : State :=
  match s.rxIn with
  | [] => { s with freeCount := s.freeCount + 1 }
  | _ :: rest => { s with rxIn := rest }

/-- The frame being sent, `frameBuf[0..frameLen)` (R26). -/
def State.frame (s : State) : ByteStr := s.frameBuf.take s.frameLen

/-- `STORE(f)` (41_frame_builder.md R103): entries at `len(f)` and above keep what they held. -/
def State.storeFrame (f : ByteStr) (s : State) : State :=
  { s with frameBuf := f ++ s.frameBuf.drop f.length, frameLen := f.length }

/-- TAKING A FAULT (60_exceptions.md R152): the fault registers and `st` are written, nothing else. In FAULT no second
fault occurs and the first one's registers are kept (R157; DEDUCED, log 11, safe). -/
def State.raise (k : FaultKind) (value : Byte) (s : State) : State :=
  if s.st = .fault then s
  else { s with faultCode := k.code, faultValue := value, faultAt := s.st.code, st := .fault }

/-- What START writes (43_transfer.md R120), with its event; the one way besides RESET out of FAULT (R156). -/
def State.latch (len addr : Word) (term : Bool) (s : State) : State :=
  { s with
    reqLength := len
    reqAddress := addr
    reqTerm := term
    frameCount := frameCountOf len
    frameNumber := 0
    remaining := len
    frameLen := 0
    faultCode := 0
    faultValue := 0
    faultAt := 0
    st := .opening
    trace := s.trace ++ [.start len addr term] }

/-- The contents of `frameBuf` after a RESET: unspecified (R39), 1029 free values. DESIGN CHOICE, log 5, safe. -/
def freeFrameBuf (k : Nat) : ByteStr := (List.range Config.FRAME_BUF_SIZE).map (Config.freeBufByte k)

/-- What RESET writes (70_reset_and_hazards.md R180, R39), with its event. -/
def State.resetRegisters (s : State) : State :=
  { s with
    st := .idle
    reqLength := 0
    reqAddress := 0
    reqTerm := false
    frameCount := 0
    frameNumber := 0
    remaining := 0
    frameBuf := freeFrameBuf s.freeCount
    frameLen := 0
    faultCode := 0
    faultValue := 0
    faultAt := 0
    freeCount := s.freeCount + 1
    trace := s.trace ++ [.reset] }

end Sys2Proof.Machine
end

