-- ==== Sys2Proof/Machine/Builders.lean ====
section
/-! DEFINITION. The Checksum Function (40_checksum.md) and the Frame Builder (41_frame_builder.md): the pure builders,
and the meanings of CHECKSUM, BUILD_ANNOUNCE, BUILD_DATA and BUILD_TERMINATE. A builder called on its own stores its
frame in any state (R100 to R103; DESIGN CHOICE, log 10, unsafe). -/

namespace Sys2Proof.Machine

/-- BUILD_ANNOUNCE's result (R100). -/
def announceFrame (totalLength address : Word) : ByteStr := withChecksum (announceBody totalLength address)

/-- BUILD_DATA's result (R101): a frame, or INVALID_ARGUMENT for a payload over 1024 bytes. -/
def dataFrame (seq : Byte) (payload : ByteStr) : Except FaultKind ByteStr :=
  if payload.length ≤ Config.CHUNK_SIZE then .ok (withChecksum (dataBody seq payload)) else .error .invalidArgument

/-- BUILD_TERMINATE's result (R102). -/
def terminateFrame (seq : Byte) : ByteStr := withChecksum (terminateBody seq)

/-- CHECKSUM (R90): no register is written; the result goes to the caller. DESIGN CHOICE, log 13, safe. -/
def execChecksum (bytes : ByteStr) (s : State) : Host.Outcome State Fault Refusal :=
  .next { s with checksumResult := some (checksumOf bytes) }

/-- BUILD_ANNOUNCE (R100, R103). -/
def execBuildAnnounce (totalLength address : Word) (s : State) : Host.Outcome State Fault Refusal :=
  .next (s.storeFrame (announceFrame totalLength address))

/-- What a BUILD_DATA called on its own leaves (R101, R103): the frame stored, or the fault taken. -/
def buildDataInto (seq : Byte) (payload : ByteStr) (s : State) : State :=
  match dataFrame seq payload with
  | .ok f => s.storeFrame f
  | .error k => s.raise k 0

/-- BUILD_DATA (R101, R103). -/
def execBuildData (seq : Byte) (payload : ByteStr) (s : State) : Host.Outcome State Fault Refusal :=
  .next (buildDataInto seq payload s)

/-- BUILD_TERMINATE (R102, R103). -/
def execBuildTerminate (seq : Byte) (s : State) : Host.Outcome State Fault Refusal :=
  .next (s.storeFrame (terminateFrame seq))

end Sys2Proof.Machine
end

