-- ==== Sys2Proof/Machine/Handshake.lean ====
section
/-! DEFINITION. The Acknowledgment Handshake (42_handshake.md): the SEND step (R111), the WAIT step (R112) and their
composition (R110), and the meanings of the three frames on the wire (30_encoding.md R70, R72, R74), of the two
acknowledgment classes (R80) and of SEND_AND_AWAIT_ACK. In a state whose row of the next-state table gives the operation
no transition it has none (43_transfer.md R132; DEDUCED, log 9, unsafe). -/

namespace Sys2Proof.Machine

/-- The SEND step (R111) for the frame `f`: one `TxWrite` of the whole frame, index 0 first, and what its answer makes of
it. `frameBuf` and `frameLen` are unchanged. A failed write may have delivered any prefix of `f`; which is not recorded
(20_memory.md R59; DEDUCED, log 22, safe). -/
def transmit (f : ByteStr) (s : State) : State :=
  match s.st.afterSend with
  | none => s
  | some wait =>
    match s.txAnswer with
    | .ok => (s.afterTx.emit (.tx f .ok)).setSt wait
    | .timeout => (s.afterTx.emit (.tx f .timeout)).raise .writeTimeout 0
    | .ioerr => (s.afterTx.emit (.tx f .ioerr)).raise .transportIo 0

/-- The WAIT step (R112) once the transport has answered `a`: `0xAA` is followed by the purge pair (R113), in the same
step and before `st` changes; no purge on a fault (R115). -/
def receive (a : RxAnswer) (s : State) : State :=
  match s.st.afterAck with
  | none => s
  | some next =>
    match a with
    | .byte b =>
      if b = Config.ACK_OK then (((s.emit (.rx a)).emit .purgeIn).emit .purgeOut).setSt next
      else (s.emit (.rx a)).raise .unexpectedAck b
    | .timeout => (s.emit (.rx a)).raise .ackTimeout 0
    | .ioerr => (s.emit (.rx a)).raise .transportIo 0

/-- The WAIT step (R112) with its request: `RxRead()` is made only in `X_WAIT`. -/
def awaitAck (s : State) : State :=
  match s.st.afterAck with
  | none => s
  | some _ => receive s.rxAnswer s.afterRx

/-- SEND_AND_AWAIT_ACK (R110) as an operation on the state: the write, then, unless it faulted, the read and what it
brings. From `X_WAIT`, where the frame is already written, it is the rest of the operation (opcode_table.json: "states
X_SEND, X_WAIT"). DESIGN CHOICE, log 12, safe. -/
def handshake (s : State) : State := awaitAck (transmit s.frame s)

/-- FRAME_ANNOUNCE on the transmit stream (R70, R78, R111). -/
def execFrameAnnounce (len addr : Word) (ck : Half) (s : State) : Host.Outcome State Fault Refusal :=
  .next (transmit (announceBody len addr ++ be16 ck) s)

/-- FRAME_DATA on the transmit stream (R72, R78, R111). -/
def execFrameData (seq nseq : Byte) (payload : ByteStr) (ck : Half) (s : State) :
    Host.Outcome State Fault Refusal :=
  .next (transmit (dataBytes seq nseq payload ++ be16 ck) s)

/-- FRAME_TERMINATE on the transmit stream (R74, R78, R111). -/
def execFrameTerminate (seq nseq : Byte) (ck : Half) (s : State) : Host.Outcome State Fault Refusal :=
  .next (transmit (terminateBytes seq nseq ++ be16 ck) s)

/-- ACK_OK: the byte `0xAA` received (R80, R112). -/
def execAckOk (s : State) : Host.Outcome State Fault Refusal := .next (receive (.byte Config.ACK_OK) s)

/-- ACK_OTHER: the byte `v` received (R80, R112). -/
def execAckOther (v : Byte) (s : State) : Host.Outcome State Fault Refusal := .next (receive (.byte v) s)

/-- SEND_AND_AWAIT_ACK (R110). -/
def execSendAndAwaitAck (s : State) : Host.Outcome State Fault Refusal := .next (handshake s)

end Sys2Proof.Machine
end

