-- ==== Sys2Proof/Machine/HostCommands.lean ====
section
/-! DEFINITION. The host's commands: START (43_transfer.md R120, R137) and RESET (70_reset_and_hazards.md R180). -/

namespace Sys2Proof.Machine

/-- START (R120): accepted in IDLE, DONE and FAULT; no effect and no event while busy (R137). -/
def execStart (len addr : Word) (term : Bool) (s : State) : Host.Outcome State Fault Refusal :=
  .next (if s.st.isRest then s.latch len addr term else s)

/-- RESET (R180), accepted in every state. -/
def execReset (s : State) : Host.Outcome State Fault Refusal := .next s.resetRegisters

end Sys2Proof.Machine
end

