-- ==== Sys2Proof/Machine/Transfer.lean ====
section
/-! DEFINITION. The Transfer Loop (43_transfer.md): the OPEN step (R122), and the meanings of READ_CHUNK (R124) and
REPORT_PROGRESS (R126, R129). In a state whose row of the next-state table gives the operation no transition it has none
(R132; DEDUCED, log 9, unsafe). -/

namespace Sys2Proof.Machine

/-- The cadence predicate (R127). -/
def cadence (fn fc : Nat) : Bool :=
  decide (fn % (if fc > Config.CADENCE_THRESHOLD then Config.CADENCE_LARGE else Config.CADENCE_SMALL) = 0)

/-- The percentage (R128), with the guard for a frame count of 0. A Nat: above 100 only in states no run reaches (DEDUCED,
log 19, safe). -/
def pct (fn fc : Nat) : Nat := if fc = 0 then 100 else fn * 100 / fc

/-- The OPEN step (R122). -/
def openStep (s : State) : State :=
  match s.openAnswer with
  | .ok => ((s.afterOpen.emit (.opened .ok)).storeFrame (announceFrame s.reqLength s.reqAddress)).setSt .aSend
  | .notFound => (s.afterOpen.emit (.opened .notFound)).raise .sourceNotFound 0

/-- READ_CHUNK's step in `D_READ` once `SrcRead(n)` was answered `DATA(bytes)` (R124). BUILD_DATA cannot fault here, since
`n ≤ 1024`; were it to, R152 keeps the counters (DEDUCED, log 27, safe). `frameNumber + 1` is a 32-bit sum, which wraps
only in states no run reaches (00_scope.md R9; DEDUCED, log 18, safe). -/
def chunkRead (n : Nat) (bytes : ByteStr) (s : State) : State :=
  match dataFrame (lo8 (s.frameNumber + 1)) bytes with
  | .ok f =>
    ({ s with
      frameNumber := s.frameNumber + 1
      remaining := s.remaining - BitVec.ofNat 32 n }.storeFrame f).setSt .dSend
  | .error k => s.raise k 0

/-- READ_CHUNK (R124) as an operation on the state. -/
def readChunk (s : State) : State :=
  if s.st = .dRead then
    if s.remaining = 0 then s.setSt .fReport
    else
      let n := chunkLen s.remaining
      match s.readAnswer n with
      | .data bytes => chunkRead n bytes (s.afterRead.emit (.read n (.data bytes)))
      | .eos => (s.afterRead.emit (.read n .eos)).raise .sourceRead 0
      | .ioerr => (s.afterRead.emit (.read n .ioerr)).raise .sourceRead 0
  else s

/-- The cadence report, state `D_REPORT` (R126). -/
def cadenceReport (s : State) : State :=
  if cadence s.frameNumber.toNat s.frameCount.toNat then
    (s.emit (.progress (pct s.frameNumber.toNat s.frameCount.toNat))).setSt .dRead
  else s.setSt .dRead

/-- The final report, state `F_REPORT`, and the terminate frame (R129, R130). -/
def finalReport (s : State) : State :=
  if s.reqTerm then
    ((s.emit (.progress 100)).storeFrame (terminateFrame (lo8 (s.frameNumber + 1)))).setSt .tSend
  else (s.emit (.progress 100)).setSt .done

/-- REPORT_PROGRESS (opcode_table.json: "states D_REPORT, F_REPORT") as an operation on the state. -/
def reportProgress (s : State) : State :=
  if s.st = .dReport then cadenceReport s else if s.st = .fReport then finalReport s else s

/-- READ_CHUNK (R124). -/
def execReadChunk (s : State) : Host.Outcome State Fault Refusal := .next (readChunk s)

/-- REPORT_PROGRESS (R126, R129). -/
def execReportProgress (s : State) : Host.Outcome State Fault Refusal := .next (reportProgress s)

end Sys2Proof.Machine
end

