-- ==== Sys2Proof/Machine/Dispatch.lean ====
section
/-! DEFINITION. The dispatch: one arm per row of opcode_table.json. -/

namespace Sys2Proof.Machine

/-- Run one operation. -/
def exec (i : Instr) (s : State) : Host.Outcome State Fault Refusal :=
  match i with
  | .frameAnnounce len addr ck => Sys2Proof.Machine.execFrameAnnounce len addr ck s
  | .frameData seq nseq payload ck => Sys2Proof.Machine.execFrameData seq nseq payload ck s
  | .frameTerminate seq nseq ck => Sys2Proof.Machine.execFrameTerminate seq nseq ck s
  | .ackOk => Sys2Proof.Machine.execAckOk s
  | .ackOther v => Sys2Proof.Machine.execAckOther v s
  | .start len addr term => Sys2Proof.Machine.execStart len addr term s
  | .reset => Sys2Proof.Machine.execReset s
  | .checksum bytes => Sys2Proof.Machine.execChecksum bytes s
  | .buildAnnounce totalLength address => Sys2Proof.Machine.execBuildAnnounce totalLength address s
  | .buildData sequenceNumber payload => Sys2Proof.Machine.execBuildData sequenceNumber payload s
  | .buildTerminate sequenceNumber => Sys2Proof.Machine.execBuildTerminate sequenceNumber s
  | .sendAndAwaitAck => Sys2Proof.Machine.execSendAndAwaitAck s
  | .readChunk => Sys2Proof.Machine.execReadChunk s
  | .reportProgress => Sys2Proof.Machine.execReportProgress s

end Sys2Proof.Machine
end

