-- ==== Sys2Proof/Machine/Engine.lean ====
section
/-! DEFINITION. What one step runs (10_state.md R30; 43_transfer.md R132): a host command if the host port has one at
this instant, else the engine's own transition, which runs the operation that `st` selects. `st` plays the part of the
program counter (R21): it says which port or register the next operation comes from. -/

namespace Sys2Proof.Machine

/-- `X_SEND`: the frame in the buffer is the instruction. The SEND step writes `frameBuf[0..frameLen)` whatever it holds
(42_handshake.md R111), so bytes that are no frame are written too (DEDUCED, log 17, safe). -/
def sendStep (s : State) : Host.Outcome State Fault Refusal :=
  match decode .transmit s.frame with
  | .ok i => exec i s
  | .error _ => .next (transmit s.frame s)

/-- `X_WAIT`: the byte received is the instruction (30_encoding.md R80); the answers TIMEOUT and IOERR have no row and are
the WAIT step's (42_handshake.md R112). -/
def waitStep (s : State) : Host.Outcome State Fault Refusal :=
  match s.rxAnswer with
  | .byte b => exec (decodeAck b) s.afterRx
  | .timeout => .next (receive .timeout s.afterRx)
  | .ioerr => .next (receive .ioerr s.afterRx)

/-- The engine's own transition. IDLE, DONE and FAULT have none (R131): the state stays as it is (DEDUCED, log 21,
safe). -/
def engineStep (s : State) : Host.Outcome State Fault Refusal :=
  match s.st with
  | .idle | .done | .fault => .next s
  | .opening => .next (openStep s)
  | .aSend | .dSend | .tSend => sendStep s
  | .aWait | .dWait | .tWait => waitStep s
  | .dRead => exec .readChunk s
  | .dReport | .fReport => exec .reportProgress s

/-- One step: the host's command at this instant is taken first, and then the engine's transition does not happen in
this step (60_exceptions.md R155; DESIGN CHOICE, log 2, safe). -/
def stepOf (s : State) : Host.Outcome State Fault Refusal :=
  match s.command with
  | some c => exec (decodeCommand c) s.afterHost
  | none => engineStep s.afterHost

/-- The `X_SEND` of the frame kind a first byte selects (R78). -/
def sendStateOf (b : Byte) : St :=
  if b = Config.MARK_DATA then .dSend else if b = Config.MARK_TERM then .tSend else .aSend

/-- A word of opcode_table.json placed where the next step finds it: one byte as the transport's next answer in
`A_WAIT`, a frame in the frame buffer in its `X_SEND`; no host command at that instant. DESIGN CHOICE, log 16, safe. -/
def presentWord (nbits w : Nat) (s : State) : State :=
  match tableBytes nbits w with
  | [] => s
  | [b] => { s with st := .aWait, hostIn := none :: s.hostIn, rxIn := .byte b :: s.rxIn }
  | b :: rest => { s.storeFrame (b :: rest) with st := sendStateOf b, hostIn := none :: s.hostIn }

/-- A test program (30_encoding.md R84): the host's commands, and the environment's answers in order. -/
def State.load (commands : List (Option Command)) (opens : List OpenAnswer) (reads : List ReadAnswer)
    (writes : List WriteAnswer) (bytes : List RxAnswer) (s : State) : State :=
  { s with hostIn := commands, openIn := opens, readIn := reads, txIn := writes, rxIn := bytes }

end Sys2Proof.Machine
end

