-- ==== Sys2Proof/Machine/Step.lean ====
section
/-! DEFINITION. One step of the machine, and the placing of a table word where the step fetches; both only call
Machine/Engine.lean. -/

namespace Sys2Proof.Machine

/-- One step: a host command or one transition of `st` (92_eei_decisions.md D27). -/
def step (s : State) : Host.Outcome State Fault Refusal := stepOf s

/-- `s` with a table word where the next step fetches its instruction (log 16). -/
def State.withFetchWord (s : State) (nbits w : Nat) : State := presentWord nbits w s

end Sys2Proof.Machine
end

