-- ==== Sys2Proof/Machine/Flags.lean ====
section
/-! DEFINITION. The status outputs (10_state.md R34): functions of the registers, read without side effect (20_memory.md
R60); the transfer's result (60_exceptions.md R158) and what the fault registers tell (R154). -/

namespace Sys2Proof.Machine

/-- `BUSY`: `st` is not IDLE, DONE or FAULT (R34). -/
def State.busy (s : State) : Bool := !s.st.isRest

/-- `DONE`: `st = DONE` (R34). -/
def State.doneFlag (s : State) : Bool := decide (s.st = .done)

/-- `FAULTED`: `st = FAULT` (R34). -/
def State.faulted (s : State) : Bool := decide (s.st = .fault)

/-- The packed word `STATUS` (R34), its highest field first: reserved 31:24, `FAULT_VALUE`, `FAULT_AT`, reserved 11,
`FAULT_CODE`, `TERM`, `FAULTED`, `DONE`, `BUSY`, `STATE`. -/
def State.status (s : State) : Word :=
  0#8 ++ s.faultValue ++ s.faultAt ++ 0#1 ++ s.faultCode ++ BitVec.ofBool s.reqTerm ++ BitVec.ofBool s.faulted ++
    BitVec.ofBool s.doneFlag ++ BitVec.ofBool s.busy ++ s.st.code

/-- The read-only words beside `STATUS` (R34): `REQ_LENGTH`, `REQ_ADDRESS`, `FRAME_COUNT`, `FRAME_NUMBER`, `REMAINING`. -/
def State.statusWords (s : State) : List Word :=
  [s.reqLength, s.reqAddress, s.frameCount, s.frameNumber, s.remaining]

/-- The fault kind of a code; 0 is no fault (60_exceptions.md R150). -/
def FaultKind.ofCode (c : BitVec 3) : Option FaultKind :=
  [FaultKind.ackTimeout, .unexpectedAck, .transportIo, .writeTimeout, .sourceNotFound, .sourceRead,
    .invalidArgument].find? (fun k => k.code == c)

/-- The whole result of a transfer (R158): none while it runs or before any; `ok` in DONE; the fault's kind in FAULT. -/
def State.result (s : State) : Option (Except (Option FaultKind) Unit) :=
  match s.st with
  | .done => some (.ok ())
  | .fault => some (.error (FaultKind.ofCode s.faultCode))
  | .idle | .opening | .aSend | .aWait | .dRead | .dSend | .dWait | .dReport | .fReport | .tSend | .tWait => none

/-- The number of the data frame a recorded fault concerns (R154): `frameNumber` with `faultAt` 5 or 6, `frameNumber + 1`
with `faultAt` 4. -/
def State.faultingDataFrame (s : State) : Option Word :=
  if s.faultAt = St.dSend.code ∨ s.faultAt = St.dWait.code then some s.frameNumber
  else if s.faultAt = St.dRead.code then some (s.frameNumber + 1)
  else none

end Sys2Proof.Machine
end

