-- ==== Sys2Proof/Safety.lean ====
section
/-! DEFINITION. The terms claims are stated in: what a run may rest on, the invariants of 10_state.md R40, the order of
the wire events (20_memory.md R62, R63), the next-state table (43_transfer.md R132) and the trace of a successful
transfer (R133), each written from its rule and not from the operations of Machine/. -/

namespace Sys2Proof.Machine

/-- Fault entry as 60_exceptions.md R152 writes it, with the state code the step was taken in. -/
def faultEntry (code : BitVec 3) (value : Byte) (stateCode : BitVec 4) (s : State) : State :=
  { s with faultCode := code, faultValue := value, faultAt := stateCode, st := .fault }

/-- The three pairs `X_SEND`, `X_WAIT` (42_handshake.md R111). -/
def sendPairs : List (St × St) := [(.aSend, .aWait), (.dSend, .dWait), (.tSend, .tWait)]

/-- The three pairs `X_WAIT`, `next(X)` (42_handshake.md R112). -/
def ackPairs : List (St × St) := [(.aWait, .dRead), (.dWait, .dReport), (.tWait, .done)]

/-- The states in which START is accepted (43_transfer.md R120). -/
def restStates : List St := [.idle, .done, .fault]

/-- The host issues no command: the premise of a claim about an uninterrupted transfer (92_eei_decisions.md D15). -/
def Quiet (s : State) : Prop := ∀ c, some c ∉ s.hostIn

/-- The register invariants: 10_state.md R40 (a, b, c, d), with R26's bounds, R121's frame count and the multiple of 1024
that every chunk but the last leaves (R40(e)). -/
structure Inv (s : State) : Prop where
  bufLength : s.frameBuf.length = 1029
  frameLenBound : s.frameLen ≤ 1029
  remainingBound : s.remaining.toNat ≤ s.reqLength.toNat
  countOfLength : s.frameCount.toNat = (s.reqLength.toNat + 1023) / 1024
  numberOfRead : s.frameNumber.toNat = (s.reqLength.toNat - s.remaining.toNat + 1023) / 1024
  wholeChunks : s.remaining = 0 ∨ 1024 ∣ s.reqLength.toNat - s.remaining.toNat
  numbered : s.st = .dSend ∨ s.st = .dWait ∨ s.st = .dReport → 1 ≤ s.frameNumber.toNat
  faultCodeIff : s.faultCode = 0 ↔ s.st ≠ .fault

/-- START and RESET begin the record of a transfer anew. -/
def Event.begins (e : Event) : Bool :=
  match e with
  | .start _ _ _ | .reset => true
  | .opened _ | .read _ _ | .tx _ _ | .rx _ | .purgeIn | .purgeOut | .progress _ => false

/-- The events of the current transfer: those after the last START or RESET. -/
def currentTransfer (tr : List Event) : List Event :=
  tr.foldl (fun acc e => if e.begins then [] else acc ++ [e]) []

/-- The chunk an event delivers. -/
def chunkOf (e : Event) : Option ByteStr :=
  match e with
  | .read _ (.data bytes) => some bytes
  | _ => none

/-- The percentage an event reports. -/
def reportOf (e : Event) : Option Nat :=
  match e with
  | .progress p => some p
  | _ => none

/-- The chunks read in the current transfer, first to last. -/
def chunks (s : State) : List ByteStr := (currentTransfer s.trace).filterMap chunkOf

/-- The percentages reported in the current transfer, first to last. -/
def reports (s : State) : List Nat := (currentTransfer s.trace).filterMap reportOf

/-- Chunk accounting (10_state.md R40(a), (e); R24): the chunks read sum to `reqLength - remaining`, there are
`frameNumber` of them, and only the last of the transfer may be short. -/
structure ChunkInv (s : State) : Prop where
  sum : ((chunks s).map List.length).sum = s.reqLength.toNat - s.remaining.toNat
  count : (chunks s).length = s.frameNumber.toNat
  full : ∀ c ∈ (chunks s).dropLast, c.length = 1024
  lastFull : s.remaining ≠ 0 → ∀ c ∈ chunks s, c.length = 1024

/-- What the frame buffer holds while a frame is sent and acknowledged (20_memory.md R67; 30_encoding.md R71, R73, R75):
the announce frame of the request, the data frame of the last chunk read, or the terminate frame. -/
def FrameInv (s : State) : Prop :=
  ((s.st = .aSend ∨ s.st = .aWait) →
    s.frame = withChecksum (announceBody s.reqLength s.reqAddress)) ∧
  ((s.st = .dSend ∨ s.st = .dWait) →
    ∃ bytes, (chunks s).getLast? = some bytes ∧ bytes.length ≤ 1024 ∧
      s.frame = withChecksum (dataBody (lo8 s.frameNumber) bytes)) ∧
  ((s.st = .tSend ∨ s.st = .tWait) →
    s.frame = withChecksum (terminateBody (lo8 (s.frameNumber + 1))))

/-- Progress so far (43_transfer.md R139): reports never decrease and are at most 100; before the final report none is
above the percentage of the frames built; from the final report on the last one is 100. -/
structure ReportInv (s : State) : Prop where
  sorted : (reports s).Pairwise (· ≤ ·)
  bound : ∀ p ∈ reports s, p ≤ 100
  soFar : s.st = .opening ∨ s.st = .aSend ∨ s.st = .aWait ∨ s.st = .dRead ∨ s.st = .dSend ∨ s.st = .dWait ∨
    s.st = .dReport → ∀ p ∈ reports s, p * s.frameCount.toNat ≤ s.frameNumber.toNat * 100
  final : s.st = .tSend ∨ s.st = .tWait ∨ s.st = .done → (reports s).getLast? = some 100

/-- The positions between wire events: nothing owed; a written frame whose reply is not yet read; an accepted reply
whose purge pair is not yet issued; half the pair issued; a failed interaction, after which only START or RESET. -/
inductive Wire where
  | clear
  | awaiting
  | accepted
  | purging
  | closed
  deriving DecidableEq, Repr

/-- The order of events that 20_memory.md R61 to R63, 42_handshake.md R113 to R115 and 60_exceptions.md R152 allow;
`none` is an event out of order. -/
def Wire.next (w : Wire) (e : Event) : Option Wire :=
  match w, e with
  | .clear, .start _ _ _ => some .clear
  | .closed, .start _ _ _ => some .clear
  | .clear, .reset => some .clear
  | .awaiting, .reset => some .clear
  | .closed, .reset => some .clear
  | .clear, .opened a => some (if a = .ok then .clear else .closed)
  | .clear, .read _ (.data _) => some .clear
  | .clear, .read _ _ => some .closed
  | .clear, .tx _ a => some (if a = .ok then .awaiting else .closed)
  | .clear, .progress _ => some .clear
  | .awaiting, .rx a => some (if a = .byte 0xAA then .accepted else .closed)
  | .accepted, .purgeIn => some .purging
  | .purging, .purgeOut => some .clear
  | _, _ => none

/-- A whole trace read by `Wire.next`. -/
def Wire.run (w : Wire) (tr : List Event) : Option Wire := tr.foldlM Wire.next w

/-- The wire position of a state: a reply is owed exactly in `X_WAIT`. -/
def wireOf (x : St) : Wire :=
  match x with
  | .aWait | .dWait | .tWait => .awaiting
  | .fault => .closed
  | .idle | .opening | .aSend | .dRead | .dSend | .dReport | .fReport | .tSend | .done => .clear

/-- The trace so far is in order and ends where `st` says. -/
def WireInv (s : State) : Prop := Wire.run .clear s.trace = some (wireOf s.st)

/-- The next-state table (43_transfer.md R132), a row per state and answer: the step's events and the next state. -/
def tableRow (s : State) : List Event × St :=
  match s.st with
  | .idle | .done | .fault => ([], s.st)
  | .opening =>
    match s.openAnswer with
    | .ok => ([.opened .ok], .aSend)
    | .notFound => ([.opened .notFound], .fault)
  | .aSend => sendRow .aWait
  | .dSend => sendRow .dWait
  | .tSend => sendRow .tWait
  | .aWait => waitRow .dRead
  | .dWait => waitRow .dReport
  | .tWait => waitRow .done
  | .dRead =>
    if s.remaining = 0 then ([], .fReport)
    else
      let n := min 1024 s.remaining.toNat
      match s.readAnswer n with
      | .data bytes => ([.read n (.data bytes)], .dSend)
      | a => ([.read n a], .fault)
  | .dReport =>
    if s.frameNumber.toNat % (if s.frameCount.toNat > 250 then 10 else 3) = 0 then
      ([.progress (if s.frameCount.toNat = 0 then 100 else s.frameNumber.toNat * 100 / s.frameCount.toNat)], .dRead)
    else ([], .dRead)
  | .fReport => ([.progress 100], if s.reqTerm then .tSend else .done)
where
  /-- The rows of `A_SEND`, `D_SEND`, `T_SEND`. -/
  sendRow (wait : St) : List Event × St :=
    ([.tx s.frame s.txAnswer], if s.txAnswer = .ok then wait else .fault)
  /-- The rows of `A_WAIT`, `D_WAIT`, `T_WAIT`. -/
  waitRow (next : St) : List Event × St :=
    if s.rxAnswer = .byte 0xAA then ([.rx s.rxAnswer, .purgeIn, .purgeOut], next) else ([.rx s.rxAnswer], .fault)

/-- The events of one acknowledged frame (42_handshake.md R110). -/
def ackedFrame (f : ByteStr) : List Event := [.tx f .ok, .rx (.byte 0xAA), .purgeIn, .purgeOut]

/-- The events of the data loop from frame `k` on (43_transfer.md R133). -/
def dataLoop (fc k : Nat) (cs : List ByteStr) : List Event :=
  match cs with
  | [] => []
  | c :: rest =>
    .read c.length (.data c) :: ackedFrame (withChecksum (dataBody (BitVec.ofNat 8 k) c)) ++
      (if k % (if fc > 250 then 10 else 3) = 0 then [.progress (k * 100 / fc)] else []) ++ dataLoop fc (k + 1) rest

/-- The trace of a transfer whose every answer is successful, after its START event (43_transfer.md R133). -/
def successTrace (len addr : Word) (term : Bool) (cs : List ByteStr) : List Event :=
  .opened .ok :: ackedFrame (withChecksum (announceBody len addr)) ++ dataLoop cs.length 1 cs ++ [.progress 100] ++
    (if term then ackedFrame (withChecksum (terminateBody (BitVec.ofNat 8 (cs.length + 1)))) else [])

/-- `cs` cuts `len` bytes into chunks of 1024, the last possibly short (20_memory.md R51). -/
def IsChunking (len : Nat) (cs : List ByteStr) : Prop :=
  cs.length = (len + 1023) / 1024 ∧ ∀ k c, cs[k]? = some c → c.length = min 1024 (len - 1024 * k)

/-- Two states that agree in everything but the bytes of `frameBuf` outside the frame, the trace and the last CHECKSUM
result (10_state.md R26, R28(f)). -/
def SameButPast (s₁ s₂ : State) : Prop :=
  s₁.frame = s₂.frame ∧
    { s₁ with frameBuf := [], trace := [], checksumResult := none } =
      { s₂ with frameBuf := [], trace := [], checksumResult := none }

/-- The steps still to be taken before a transfer ends, counted from the next-state table (70_reset_and_hazards.md
R193). -/
def stepsLeft (s : State) : Nat :=
  match s.st with
  | .idle | .done | .fault => 0
  | .tWait => 1
  | .tSend => 2
  | .fReport => 3
  | .dRead => loop
  | .dReport => loop + 1
  | .dWait => loop + 2
  | .dSend => loop + 3
  | .aWait => loop + 1
  | .aSend => loop + 2
  | .opening => loop + 3
where
  /-- The steps from `D_READ` on. -/
  loop : Nat := 4 * ((s.remaining.toNat + 1023) / 1024) + 4

end Sys2Proof.Machine
end

