-- ==== Sys2Proof/WellFormed.lean ====
section
/-! DEFINITION. Which instruction terms the spec's encodings admit: the field relations of the three frames
(30_encoding.md R72 to R77) and the priority of ACK_OK over ACK_OTHER (R80). -/

namespace Sys2Proof

open Machine

/-- The field relations of a frame: the complement byte (R73, R75, R77), the payload's length (R72), the checksum
(R76). An oversize BUILD_DATA payload is no ill-formed term: 41_frame_builder.md R101 gives it a fault. -/
def Instr.wf : Instr → Bool
  | .frameAnnounce len addr ck => decide (ck = checksumOf (announceBody len addr))
  | .frameData seq nseq payload ck =>
    decide (nseq = cpl8 seq) && decide (payload.length ≤ Config.CHUNK_SIZE) &&
      decide (ck = checksumOf (dataBytes seq nseq payload))
  | .frameTerminate seq nseq ck =>
    decide (nseq = cpl8 seq) && decide (ck = checksumOf (terminateBytes seq nseq))
  | .ackOk => true
  | .ackOther v => decide (v ≠ Config.ACK_OK)
  | .start _ _ _ => true
  | .reset => true
  | .checksum _ => true
  | .buildAnnounce _ _ => true
  | .buildData _ _ => true
  | .buildTerminate _ => true
  | .sendAndAwaitAck => true
  | .readChunk => true
  | .reportProgress => true

end Sys2Proof
end

