-- ==== Sys2Proof/Certificates/Slice0/Obligations.lean ====
section
/-! DEFINITION. The statements for the provers, one `Prop` each; every docstring names the rule it formalises. -/

open Sys2Proof Sys2Proof.Machine

/-! ### Encodings -/

/-- 30_encoding.md R70 to R80: decoding the encoding of a well-formed instruction gives it back, every field at every
value. -/
def Obligations.DecodeOfEncodeIsTheInstruction : Prop :=
  ∀ (i : Instr) (st : Stream) (bs : ByteStr), i.wf = true → encode i = some (st, bs) → decode st bs = .ok i

/-- 30_encoding.md R70 to R80: bytes that decode are the encoding of what they decode to, so no bit of them is dropped. -/
def Obligations.EncodeOfDecodeIsTheBytes : Prop :=
  ∀ (st : Stream) (bs : ByteStr) (i : Instr), decode st bs = .ok i → encode i = some (st, bs)

/-- Words written out from the tables of 30_encoding.md R70, R72, R74, R80 decode to their instructions. -/
def Obligations.WrittenOutWordsDecode : Prop :=
  decode .transmit [0xFE, 0x00, 0xFF, 0x01, 0x00, 0x00, 0x09, 0xC4, 0x00, 0x10, 0x00, 0x00, 0x12, 0x34] =
      .ok (.frameAnnounce 2500 0x00100000 0x1234) ∧
    decode .transmit [0xDA, 0x01, 0xFE, 0x01, 0x02, 0x03, 0x56, 0x78] = .ok (.frameData 1 0xFE [1, 2, 3] 0x5678) ∧
    decode .transmit [0xED, 0x04, 0xFB, 0x9A, 0xBC] = .ok (.frameTerminate 4 0xFB 0x9ABC) ∧
    decode .receive [0xAA] = .ok .ackOk ∧ decode .receive [0x55] = .ok (.ackOther 0x55)

/-- 30_encoding.md R78: a frame that decodes is of the kind its first byte selects, and has that kind's length. -/
def Obligations.FirstByteSelectsFrameKind : Prop :=
  ∀ (b : Byte) (rest : ByteStr) (i : Instr), decode .transmit (b :: rest) = .ok i →
    (b = 0xFE ∧ (b :: rest).length = 14 ∧ ∃ len addr ck, i = .frameAnnounce len addr ck) ∨
    (b = 0xDA ∧ ∃ seq nseq payload ck, i = .frameData seq nseq payload ck ∧ (b :: rest).length = 5 + payload.length ∧
      payload.length ≤ 1024) ∨
    (b = 0xED ∧ (b :: rest).length = 5 ∧ ∃ seq nseq ck, i = .frameTerminate seq nseq ck)

/-- 30_encoding.md R80: `0xAA` is ACK_OK and every other byte ACK_OTHER with its value; no byte is refused. -/
def Obligations.EveryReplyByteDecodes : Prop :=
  ∀ b : Byte, decode .receive [b] = .ok (if b = 0xAA then .ackOk else .ackOther b)

/-- 30_encoding.md R82: the fields of the START strobe, and RESET, which has none. -/
def Obligations.CommandStrobesDecode : Prop :=
  (∀ len addr : Word, decodeCommand (.start len addr 1) = .start len addr true ∧
    decodeCommand (.start len addr 0) = .start len addr false) ∧
  decodeCommand .reset = .reset ∧
  ∀ (i : Instr) (c : Command), encodeCommand i = some c → decodeCommand c = i

/-- 41_frame_builder.md R100 to R102 with 30_encoding.md R70 to R76: what the builders make is the encoding of a
well-formed frame instruction with the builder's operands. -/
def Obligations.BuiltFramesAreWellFormed : Prop :=
  (∀ len addr : Word, ∃ ck, (Instr.frameAnnounce len addr ck).wf = true ∧
    encode (.frameAnnounce len addr ck) = some (.transmit, announceFrame len addr)) ∧
  (∀ (seq : Byte) (payload f : ByteStr), dataFrame seq payload = .ok f →
    ∃ ck, (Instr.frameData seq (255 - seq) payload ck).wf = true ∧
      encode (.frameData seq (255 - seq) payload ck) = some (.transmit, f)) ∧
  ∀ seq : Byte, ∃ ck, (Instr.frameTerminate seq (255 - seq) ck).wf = true ∧
    encode (.frameTerminate seq (255 - seq) ck) = some (.transmit, terminateFrame seq)

/-! ### Checksum and Frame Builder -/

/-- 40_checksum.md R90: CHECKSUM completes on every byte string, gives `CHECKSUM16(bytes)` to its caller and writes no
register. That the result is held in `checksumResult` is the model's choice (log 13). -/
def Obligations.ChecksumGivesTheParameter : Prop :=
  ∀ (bytes : ByteStr) (s : State),
    exec (.checksum bytes) s = .next { s with checksumResult := some (Config.CHECKSUM16 bytes) }

/-- 41_frame_builder.md R100: BUILD_ANNOUNCE, on every operand value and in every state (log 10), stores the 14 bytes of
30_encoding.md R70 and nothing else changes. -/
def Obligations.BuildAnnounceStoresItsFrame : Prop :=
  ∀ (len addr : Word) (s : State),
    let body : ByteStr := [0xFE, 0x00, 0xFF, 0x01,
      len.extractLsb' 24 8, len.extractLsb' 16 8, len.extractLsb' 8 8, len.extractLsb' 0 8,
      addr.extractLsb' 24 8, addr.extractLsb' 16 8, addr.extractLsb' 8 8, addr.extractLsb' 0 8]
    let ck := Config.CHECKSUM16 body
    exec (.buildAnnounce len addr) s =
      .next { s with
        frameBuf := body ++ [ck.extractLsb' 8 8, ck.extractLsb' 0 8] ++ s.frameBuf.drop 14
        frameLen := 14 }

/-- 41_frame_builder.md R101: BUILD_DATA stores the frame of 30_encoding.md R72 for a payload of up to 1024 bytes, and
takes INVALID_ARGUMENT for a longer one. That it does so in every state, and that in FAULT no second fault is taken, are
the model's reading (log 10, log 11). -/
def Obligations.BuildDataStoresItsFrameOrFaults : Prop :=
  ∀ (seq : Byte) (payload : ByteStr) (s : State),
    let body : ByteStr := [0xDA, seq, 255 - seq] ++ payload
    let ck := Config.CHECKSUM16 body
    (payload.length ≤ 1024 → exec (.buildData seq payload) s =
      .next { s with
        frameBuf := body ++ [ck.extractLsb' 8 8, ck.extractLsb' 0 8] ++ s.frameBuf.drop (5 + payload.length)
        frameLen := 5 + payload.length }) ∧
    (1024 < payload.length → s.st ≠ .fault →
      exec (.buildData seq payload) s = .next (faultEntry 7 0 s.st.code s)) ∧
    (1024 < payload.length → s.st = .fault → exec (.buildData seq payload) s = .next s)

/-- 41_frame_builder.md R102: BUILD_TERMINATE, on every operand value and in every state (log 10), stores the 5 bytes of
30_encoding.md R74 and nothing else changes. -/
def Obligations.BuildTerminateStoresItsFrame : Prop :=
  ∀ (seq : Byte) (s : State),
    let body : ByteStr := [0xED, seq, 255 - seq]
    let ck := Config.CHECKSUM16 body
    exec (.buildTerminate seq) s =
      .next { s with
        frameBuf := body ++ [ck.extractLsb' 8 8, ck.extractLsb' 0 8] ++ s.frameBuf.drop 5
        frameLen := 5 }

/-- 41_frame_builder.md R103: after a builder that stores a frame of `frameLen` bytes, the buffer's bytes from
`frameLen` on are what they were. -/
def Obligations.BuildersKeepTheBytesAboveTheFrame : Prop :=
  ∀ (i : Instr) (s t : State),
    ((∃ len addr, i = .buildAnnounce len addr) ∨ (∃ seq payload, i = .buildData seq payload ∧ payload.length ≤ 1024) ∨
      (∃ seq, i = .buildTerminate seq)) →
    exec i s = .next t →
    t.frame.length = t.frameLen ∧ ∀ k, t.frameLen ≤ k → t.frameBuf[k]? = s.frameBuf[k]?

/-- 41_frame_builder.md R104 (a) to (e): lengths, read-back of the announce fields, the complement, the payload slice,
the checksum of everything before it. -/
def Obligations.BuilderResultsReadBack : Prop :=
  (∀ len addr : Word, ∃ b7 b6 b5 b4 b11 b10 b9 b8 c1 c0,
    announceFrame len addr = [0xFE, 0x00, 0xFF, 0x01, b7, b6, b5, b4, b11, b10, b9, b8, c1, c0] ∧
    (announceFrame len addr).length = 14 ∧
    b7 ++ b6 ++ b5 ++ b4 = len ∧ b11 ++ b10 ++ b9 ++ b8 = addr ∧
    c1 ++ c0 = Config.CHECKSUM16 ((announceFrame len addr).take 12)) ∧
  (∀ (seq : Byte) (payload f : ByteStr), dataFrame seq payload = .ok f → ∃ nseq c1 c0,
    f = 0xDA :: seq :: nseq :: payload ++ [c1, c0] ∧ f.length = 5 + payload.length ∧ f.length ≤ 1029 ∧
    seq.toNat + nseq.toNat = 255 ∧
    c1 ++ c0 = Config.CHECKSUM16 (f.take (f.length - 2))) ∧
  ∀ seq : Byte, ∃ nseq c1 c0,
    terminateFrame seq = [0xED, seq, nseq, c1, c0] ∧ seq.toNat + nseq.toNat = 255 ∧
    c1 ++ c0 = Config.CHECKSUM16 [0xED, seq, nseq]

/-- 41_frame_builder.md R104 (f): the builders are injective, and no two kinds share a frame (30_encoding.md R78). -/
def Obligations.BuildersAreInjective : Prop :=
  (∀ l₁ a₁ l₂ a₂ : Word, announceFrame l₁ a₁ = announceFrame l₂ a₂ → l₁ = l₂ ∧ a₁ = a₂) ∧
  (∀ (q₁ q₂ : Byte) (p₁ p₂ f : ByteStr), dataFrame q₁ p₁ = .ok f → dataFrame q₂ p₂ = .ok f → q₁ = q₂ ∧ p₁ = p₂) ∧
  (∀ q₁ q₂ : Byte, terminateFrame q₁ = terminateFrame q₂ → q₁ = q₂) ∧
  (∀ (l a : Word) (q₁ q₂ : Byte) (p f : ByteStr), dataFrame q₁ p = .ok f →
    f ≠ announceFrame l a ∧ f ≠ terminateFrame q₂ ∧ announceFrame l a ≠ terminateFrame q₂)

/-! ### Host commands and status -/

/-- 43_transfer.md R120: START in IDLE, DONE or FAULT latches the request, clears the counters and the fault registers
and goes to OPEN; BUSY becomes 1, DONE and FAULTED 0. In any other state it has no effect. -/
def Obligations.StartLatchesTheRequest : Prop :=
  ∀ (len addr : Word) (term : Bool) (s : State),
    (s.st ∉ restStates → exec (.start len addr term) s = .next s) ∧
    (s.st ∈ restStates → ∃ t, exec (.start len addr term) s = .next t ∧
    t = { s with
      reqLength := len
      reqAddress := addr
      reqTerm := term
      frameCount := BitVec.ofNat 32 ((len.toNat + 1023) / 1024)
      frameNumber := 0
      remaining := len
      frameLen := 0
      faultCode := 0
      faultValue := 0
      faultAt := 0
      st := .opening
      trace := s.trace ++ [.start len addr term] } ∧
    t.busy = true ∧ t.doneFlag = false ∧ t.faulted = false)

/-- 43_transfer.md R137: START in any other state has no effect and appends no event. -/
def Obligations.StartWhileBusyHasNoEffect : Prop :=
  ∀ (len addr : Word) (term : Bool) (s : State), s.st ∉ restStates → exec (.start len addr term) s = .next s

/-- 43_transfer.md R121: the frame count a START leaves is exactly `ceil(len / 1024)`, without overflow, and is the
named value at the named lengths. -/
def Obligations.FrameCountIsTheCeiling : Prop :=
  ∀ (len addr : Word) (term : Bool) (s t : State), s.st ∈ restStates → exec (.start len addr term) s = .next t →
    t.frameCount.toNat = (len.toNat + 1023) / 1024 ∧ 1024 * t.frameCount.toNat ≥ len.toNat ∧
    1024 * t.frameCount.toNat < len.toNat + 1024 ∧ t.frameCount.toNat ≤ 4194304 ∧
    (t.frameCount = 0 ↔ len = 0) ∧ (t.frameCount = 1 ↔ 1 ≤ len.toNat ∧ len.toNat ≤ 1024) ∧
    (t.frameCount = 2 ↔ 1025 ≤ len.toNat ∧ len.toNat ≤ 2048) ∧ (len = 0xFFFFFFFF → t.frameCount = 4194304)

/-- 70_reset_and_hazards.md R180: RESET in every state gives every register its reset value (10_state.md R39), appends
RESET and makes no request (every answer still to come is still there); `frameBuf` is unspecified, and how many free
values its contents take is not said. -/
def Obligations.ResetSetsEveryRegister : Prop :=
  ∀ s : State, ∃ (buf : ByteStr) (drawn : Nat), buf.length = 1029 ∧ exec .reset s = .next {
    st := .idle, reqLength := 0, reqAddress := 0, reqTerm := false, frameCount := 0, frameNumber := 0, remaining := 0,
    frameBuf := buf, frameLen := 0, faultCode := 0, faultValue := 0, faultAt := 0,
    trace := s.trace ++ [.reset], hostIn := s.hostIn, openIn := s.openIn, readIn := s.readIn, txIn := s.txIn,
    rxIn := s.rxIn, freeCount := drawn, checksumResult := s.checksumResult }

/-- 10_state.md R39: the registers at power-on and after a RESET in any state; STATUS and the five words read 0. -/
def Obligations.ResetStateHoldsTheResetValues : Prop :=
  ∀ t : State, (t = State.reset ∨ ∃ s, exec .reset s = .next t) →
    t.st = .idle ∧ t.reqLength = 0 ∧ t.reqAddress = 0 ∧ t.reqTerm = false ∧ t.frameCount = 0 ∧ t.frameNumber = 0 ∧
    t.remaining = 0 ∧ t.frameLen = 0 ∧ t.faultCode = 0 ∧ t.faultValue = 0 ∧ t.faultAt = 0 ∧
    t.status = 0 ∧ t.statusWords = [0, 0, 0, 0, 0]

/-- 10_state.md R34: every field of STATUS where the table puts it, the reserved bits 0, and the five words. -/
def Obligations.StatusWordHoldsItsFields : Prop :=
  ∀ s : State,
    s.status.extractLsb' 0 4 = s.st.code ∧
    s.status.extractLsb' 4 1 = BitVec.ofBool (decide (s.st ∉ restStates)) ∧
    s.status.extractLsb' 5 1 = BitVec.ofBool (decide (s.st = .done)) ∧
    s.status.extractLsb' 6 1 = BitVec.ofBool (decide (s.st = .fault)) ∧
    s.status.extractLsb' 7 1 = BitVec.ofBool s.reqTerm ∧
    s.status.extractLsb' 8 3 = s.faultCode ∧
    s.status.extractLsb' 11 1 = 0 ∧
    s.status.extractLsb' 12 4 = s.faultAt ∧
    s.status.extractLsb' 16 8 = s.faultValue ∧
    s.status.extractLsb' 24 8 = 0 ∧
    s.statusWords = [s.reqLength, s.reqAddress, s.frameCount, s.frameNumber, s.remaining]

/-- 10_state.md R21: the codes of `st`, all different, 13 to 15 never among them. -/
def Obligations.StateCodesAreTheTables : Prop :=
  ([St.idle, .opening, .aSend, .aWait, .dRead, .dSend, .dWait, .dReport, .fReport, .tSend, .tWait, .done,
    .fault].map fun x => x.code.toNat) = List.range 13 ∧
  ∀ x y : St, x.code.toNat ≤ 12 ∧ (x.code = y.code → x = y)

/-- 60_exceptions.md R150, R151, R158, R154: the fault codes and classes, each code naming its kind, 0 none; the result of
a transfer; which data frame a recorded fault concerns. -/
def Obligations.FaultCodesAndResult : Prop :=
  ([FaultKind.ackTimeout, .unexpectedAck, .transportIo, .writeTimeout, .sourceNotFound, .sourceRead,
    .invalidArgument].map fun k => (k.code.toNat, k.cls)) =
    [(1, .protocol), (2, .protocol), (3, .transport), (4, .transport), (5, .source), (6, .source), (7, .argument)] ∧
  FaultKind.ofCode 0 = none ∧ (∀ k : FaultKind, FaultKind.ofCode k.code = some k) ∧
  ∀ s : State, (s.st = .done ↔ s.result = some (.ok ())) ∧
    (s.st = .fault → s.result = some (.error (FaultKind.ofCode s.faultCode))) ∧
    (s.st ≠ .done → s.st ≠ .fault → s.result = none) ∧
    (s.faultAt = 5 ∨ s.faultAt = 6 → s.faultingDataFrame = some s.frameNumber) ∧
    (s.faultAt = 4 → s.faultingDataFrame = some (s.frameNumber + 1))

/-! ### Acknowledgment Handshake -/

/-- 30_encoding.md R70 to R78 with 42_handshake.md R111: the three frames on the wire. In `X_SEND` each is written whole,
as its encoding; OK leads to `X_WAIT`, TIMEOUT and IOERR to their faults; nothing else changes. -/
def Obligations.FramesAreWrittenWhole : Prop :=
  ∀ (i : Instr) (f : ByteStr) (x w : St) (s : State), encode i = some (.transmit, f) → (x, w) ∈ sendPairs → s.st = x →
    (s.txAnswer = .ok →
      exec i s = .next { s.afterTx with st := w, trace := s.trace ++ [.tx f .ok] }) ∧
    (s.txAnswer = .timeout →
      exec i s = .next (faultEntry 4 0 x.code { s.afterTx with trace := s.trace ++ [.tx f .timeout] })) ∧
    (s.txAnswer = .ioerr →
      exec i s = .next (faultEntry 3 0 x.code { s.afterTx with trace := s.trace ++ [.tx f .ioerr] }))

/-- 42_handshake.md R111: the SEND step writes `frameBuf[0..frameLen)`, whatever it holds. -/
def Obligations.SendStepFollowsItsRule : Prop :=
  ∀ (x w : St) (s : State), (x, w) ∈ sendPairs → s.st = x → s.command = none →
    let f := s.frameBuf.take s.frameLen
    let s₁ := s.afterHost.afterTx
    (s.txAnswer = .ok → step s = .next { s₁ with st := w, trace := s.trace ++ [.tx f .ok] }) ∧
    (s.txAnswer = .timeout →
      step s = .next (faultEntry 4 0 x.code { s₁ with trace := s.trace ++ [.tx f .timeout] })) ∧
    (s.txAnswer = .ioerr → step s = .next (faultEntry 3 0 x.code { s₁ with trace := s.trace ++ [.tx f .ioerr] }))

/-- 30_encoding.md R80, 42_handshake.md R112, R113: ACK_OK in `X_WAIT` purges input then output and leads to `next(X)`;
the byte is kept nowhere. -/
def Obligations.AckOkPurgesAndGoesOn : Prop :=
  ∀ (x n : St) (s : State), (x, n) ∈ ackPairs → s.st = x →
    exec .ackOk s = .next { s with st := n, trace := s.trace ++ [.rx (.byte 0xAA), .purgeIn, .purgeOut] }

/-- 30_encoding.md R80, 42_handshake.md R112, R115: any other byte in `X_WAIT` is the fault UNEXPECTED_ACK with its
value, with no purge. -/
def Obligations.AckOtherIsAFaultWithItsValue : Prop :=
  ∀ (v : Byte) (x n : St) (s : State), v ≠ 0xAA → (x, n) ∈ ackPairs → s.st = x →
    exec (.ackOther v) s = .next (faultEntry 2 v x.code { s with trace := s.trace ++ [.rx (.byte v)] })

/-- 42_handshake.md R112: the WAIT step on each of the transport's answers. -/
def Obligations.WaitStepFollowsItsRule : Prop :=
  ∀ (x n : St) (s : State), (x, n) ∈ ackPairs → s.st = x → s.command = none →
    let s₁ := s.afterHost.afterRx
    (s.rxAnswer = .byte 0xAA →
      step s = .next { s₁ with st := n, trace := s.trace ++ [.rx (.byte 0xAA), .purgeIn, .purgeOut] }) ∧
    (∀ b : Byte, b ≠ 0xAA → s.rxAnswer = .byte b →
      step s = .next (faultEntry 2 b x.code { s₁ with trace := s.trace ++ [.rx (.byte b)] })) ∧
    (s.rxAnswer = .timeout →
      step s = .next (faultEntry 1 0 x.code { s₁ with trace := s.trace ++ [.rx .timeout] })) ∧
    (s.rxAnswer = .ioerr →
      step s = .next (faultEntry 3 0 x.code { s₁ with trace := s.trace ++ [.rx .ioerr] }))

/-- 42_handshake.md R110: SEND_AND_AWAIT_ACK from `X_SEND`: the write faults before any read, the read faults, and
success with the purge pair. -/
def Obligations.HandshakeFollowsItsRule : Prop :=
  ∀ (x w n : St) (s : State), (x, w) ∈ sendPairs → (w, n) ∈ ackPairs → s.st = x →
    let f := s.frameBuf.take s.frameLen
    let s₁ := s.afterTx
    let s₂ := s₁.afterRx
    (s.txAnswer = .timeout → exec .sendAndAwaitAck s =
      .next (faultEntry 4 0 x.code { s₁ with trace := s.trace ++ [.tx f .timeout] })) ∧
    (s.txAnswer = .ioerr → exec .sendAndAwaitAck s =
      .next (faultEntry 3 0 x.code { s₁ with trace := s.trace ++ [.tx f .ioerr] })) ∧
    (s.txAnswer = .ok → s₁.rxAnswer = .timeout → exec .sendAndAwaitAck s =
      .next (faultEntry 1 0 w.code { s₂ with trace := s.trace ++ [.tx f .ok, .rx .timeout] })) ∧
    (s.txAnswer = .ok → s₁.rxAnswer = .ioerr → exec .sendAndAwaitAck s =
      .next (faultEntry 3 0 w.code { s₂ with trace := s.trace ++ [.tx f .ok, .rx .ioerr] })) ∧
    (∀ b : Byte, b ≠ 0xAA → s.txAnswer = .ok → s₁.rxAnswer = .byte b → exec .sendAndAwaitAck s =
      .next (faultEntry 2 b w.code { s₂ with trace := s.trace ++ [.tx f .ok, .rx (.byte b)] })) ∧
    (s.txAnswer = .ok → s₁.rxAnswer = .byte 0xAA → exec .sendAndAwaitAck s =
      .next { s₂ with
        st := n
        trace := s.trace ++ [.tx f .ok, .rx (.byte 0xAA), .purgeIn, .purgeOut] })

/-- 42_handshake.md R110 against R111 and R112: the handshake as one operation is the SEND step and then the WAIT step,
when the host issues no command between them. -/
def Obligations.HandshakeIsTheSendAndTheWaitStep : Prop :=
  ∀ (x w : St) (s : State), (x, w) ∈ sendPairs → s.st = x → s.hostIn = [] →
    Host.Core.run Sys2Proof.core 2 s = exec .sendAndAwaitAck s

/-- 42_handshake.md R112 with opcode_table.json's "states X_SEND, X_WAIT": SEND_AND_AWAIT_ACK from `X_WAIT`, where the
frame is already written, is the rest of the operation: no second write. The model's choice (log 12). -/
def Obligations.HandshakeFromTheWaitStates : Prop :=
  ∀ (x n : St) (s : State), (x, n) ∈ ackPairs → s.st = x →
    let s₁ := s.afterRx
    (s.rxAnswer = .byte 0xAA → exec .sendAndAwaitAck s =
      .next { s₁ with st := n, trace := s.trace ++ [.rx (.byte 0xAA), .purgeIn, .purgeOut] }) ∧
    (∀ b : Byte, b ≠ 0xAA → s.rxAnswer = .byte b → exec .sendAndAwaitAck s =
      .next (faultEntry 2 b x.code { s₁ with trace := s.trace ++ [.rx (.byte b)] })) ∧
    (s.rxAnswer = .timeout → exec .sendAndAwaitAck s =
      .next (faultEntry 1 0 x.code { s₁ with trace := s.trace ++ [.rx .timeout] })) ∧
    (s.rxAnswer = .ioerr → exec .sendAndAwaitAck s =
      .next (faultEntry 3 0 x.code { s₁ with trace := s.trace ++ [.rx .ioerr] }))

/-! ### Transfer Loop -/

/-- 43_transfer.md R122: the OPEN step. -/
def Obligations.OpenStepFollowsItsRule : Prop :=
  ∀ s : State, s.st = .opening → s.command = none →
    let s₁ := s.afterHost.afterOpen
    let f := announceFrame s.reqLength s.reqAddress
    (s.openAnswer = .ok → step s = .next { s₁ with
      frameBuf := f ++ s.frameBuf.drop 14
      frameLen := 14
      st := .aSend
      trace := s.trace ++ [.opened .ok] }) ∧
    (s.openAnswer = .notFound →
      step s = .next (faultEntry 5 0 1 { s₁ with trace := s.trace ++ [.opened .notFound] }))

/-- 43_transfer.md R124: READ_CHUNK in `D_READ`: the end of the loop, a chunk read, and a source that failed. -/
def Obligations.ReadChunkFollowsItsRule : Prop :=
  ∀ s : State, s.st = .dRead →
    let n := min 1024 s.remaining.toNat
    (s.remaining = 0 → exec .readChunk s = .next { s with st := .fReport }) ∧
    (∀ bytes : ByteStr, s.remaining ≠ 0 → s.readAnswer n = .data bytes →
      let q : Byte := (s.frameNumber + 1).extractLsb' 0 8
      let body : ByteStr := [0xDA, q, 255 - q] ++ bytes
      let ck := Config.CHECKSUM16 body
      exec .readChunk s = .next { s.afterRead with
        frameNumber := s.frameNumber + 1
        remaining := s.remaining - BitVec.ofNat 32 n
        frameBuf := body ++ [ck.extractLsb' 8 8, ck.extractLsb' 0 8] ++ s.frameBuf.drop (5 + n)
        frameLen := 5 + n
        st := .dSend
        trace := s.trace ++ [.read n (.data bytes)] }) ∧
    (s.remaining ≠ 0 → s.readAnswer n = .eos → exec .readChunk s =
      .next (faultEntry 6 0 4 { s.afterRead with trace := s.trace ++ [.read n .eos] })) ∧
    (s.remaining ≠ 0 → s.readAnswer n = .ioerr → exec .readChunk s =
      .next (faultEntry 6 0 4 { s.afterRead with trace := s.trace ++ [.read n .ioerr] }))

/-- 10_state.md R32: a `DATA` answer has the length asked for; and an answer of that length, or a failure, that the
source has listed is given as it is. How an answer of another length is read is the model's choice (log 8). -/
def Obligations.SourceAnswersHaveTheLengthAskedFor : Prop :=
  ∀ (n : Nat) (s : State),
    (∀ bytes, s.readAnswer n = .data bytes → bytes.length = n) ∧
    (∀ bytes rest, s.readIn = .data bytes :: rest → bytes.length = n →
      s.readAnswer n = .data bytes ∧ s.afterRead = { s with readIn := rest }) ∧
    (∀ rest, s.readIn = .eos :: rest → s.readAnswer n = .eos) ∧
    (∀ rest, s.readIn = .ioerr :: rest → s.readAnswer n = .ioerr)

/-- 43_transfer.md R126, R127, R128: REPORT_PROGRESS in `D_REPORT`. -/
def Obligations.CadenceReportFollowsItsRule : Prop :=
  ∀ s : State, s.st = .dReport →
    let fn := s.frameNumber.toNat
    let fc := s.frameCount.toNat
    let k := if fc > 250 then 10 else 3
    (fn % k = 0 → 0 < fc → exec .reportProgress s =
      .next { s with st := .dRead, trace := s.trace ++ [.progress (fn * 100 / fc)] }) ∧
    (fn % k = 0 → fc = 0 → exec .reportProgress s =
      .next { s with st := .dRead, trace := s.trace ++ [.progress 100] }) ∧
    (fn % k ≠ 0 → exec .reportProgress s = .next { s with st := .dRead })

/-- 43_transfer.md R129, R130: REPORT_PROGRESS in `F_REPORT`: 100 unconditionally, then the terminate frame with
sequence number `lo8(frameNumber + 1)`, or DONE. -/
def Obligations.FinalReportFollowsItsRule : Prop :=
  ∀ s : State, s.st = .fReport →
    let q : Byte := (s.frameNumber + 1).extractLsb' 0 8
    let body : ByteStr := [0xED, q, 255 - q]
    let ck := Config.CHECKSUM16 body
    (s.reqTerm = true → exec .reportProgress s = .next { s with
      frameBuf := body ++ [ck.extractLsb' 8 8, ck.extractLsb' 0 8] ++ s.frameBuf.drop 5
      frameLen := 5
      st := .tSend
      trace := s.trace ++ [.progress 100] }) ∧
    (s.reqTerm = false → exec .reportProgress s =
      .next { s with st := .done, trace := s.trace ++ [.progress 100] })

/-- 43_transfer.md R135, 10_state.md R24: the sequence byte of the frame a chunk read builds is the frame number mod 256,
its complement beside it; the register itself counts on. -/
def Obligations.SequenceByteWrapsAndTheCounterDoesNot : Prop :=
  ∀ (s t : State), Inv s → s.st = .dRead → s.remaining ≠ 0 → exec .readChunk s = .next t → t.st = .dSend →
    t.frameNumber.toNat = s.frameNumber.toNat + 1 ∧
    ∃ q nq : Byte, t.frame[0]? = some 0xDA ∧ t.frame[1]? = some q ∧ t.frame[2]? = some nq ∧
      q.toNat = t.frameNumber.toNat % 256 ∧ q.toNat + nq.toNat = 255

/-- 43_transfer.md R128, R139: a percentage of frames built is at most 100, does not decrease as frames are built, and is
100 exactly at the last frame. -/
def Obligations.PercentageIsBoundedAndMonotone : Prop :=
  ∀ fn fn' fc : Nat, fn ≤ fn' → fn' ≤ fc →
    pct fn fc ≤ pct fn' fc ∧ pct fn' fc ≤ 100 ∧ (0 < fc → (pct fn' fc = 100 ↔ fn' = fc)) ∧ pct fn 0 = 100

/-! ### One step -/

/-- 10_state.md R21, R30: a step runs the instruction that is presented: the frame in the buffer in `X_SEND`, the byte
received in `X_WAIT`, READ_CHUNK in `D_READ`, REPORT_PROGRESS in `D_REPORT` and `F_REPORT`; before them, a host command at
this instant. R155 says that of RESET; that START too is taken first is the model's choice (log 2). -/
def Obligations.StepRunsThePresentedInstruction : Prop :=
  ∀ s : State,
    (∀ c, s.command = some c → step s = exec (decodeCommand c) s.afterHost) ∧
    (∀ x w i, s.command = none → (x, w) ∈ sendPairs → s.st = x → decode .transmit s.frame = .ok i →
      step s = exec i s.afterHost) ∧
    (∀ x n b i, s.command = none → (x, n) ∈ ackPairs → s.st = x → s.rxAnswer = .byte b → decode .receive [b] = .ok i →
      step s = exec i s.afterHost.afterRx) ∧
    (s.command = none → s.st = .dRead → step s = exec .readChunk s.afterHost) ∧
    (s.command = none → s.st = .dReport ∨ s.st = .fReport → step s = exec .reportProgress s.afterHost)

/-- Every step and every operation answers a next state: the model neither faults nor refuses. The model's reading: that a
step of IDLE, DONE and FAULT answers is log 21, that every operation answers in every state is log 9 and log 10, that
every request is answered in its step is log 24 (42_handshake.md R116). -/
def Obligations.EveryStepAnswersANextState : Prop :=
  (∀ s : State, ∃ t, step s = .next t) ∧ ∀ (i : Instr) (s : State), ∃ t, exec i s = .next t

/-- From 43_transfer.md R132, every row: a step without a host command appends the events of its state's row and moves to
its next state; RESET leads to IDLE; START leads to OPEN from IDLE, DONE and FAULT and has no effect elsewhere. That the
engine's transition does not happen at a START's instant is the model's choice (log 2), and so is the step of IDLE, DONE
and FAULT that leaves the state as it is (log 21). -/
def Obligations.StepFollowsTheNextStateTable : Prop :=
  ∀ (s t : State), step s = .next t →
    (s.command = none → t.trace = s.trace ++ (tableRow s).1 ∧ t.st = (tableRow s).2) ∧
    (s.command = some .reset → t.trace = s.trace ++ [.reset] ∧ t.st = .idle) ∧
    ∀ (len addr : Word) (term : BitVec 1), s.command = some (.start len addr term) →
      (s.st ∈ restStates → t.trace = s.trace ++ [.start len addr (decide (term = 1))] ∧ t.st = .opening) ∧
      (s.st ∉ restStates → t = s.afterHost)

/-- 43_transfer.md R131: IDLE, DONE and FAULT have no step: every register, the trace and the environment's answers stay
until a command comes. -/
def Obligations.RestStatesStayUntilACommand : Prop :=
  ∀ s : State, s.st ∈ restStates → s.command = none → step s = .next s.afterHost

/-- 43_transfer.md R132 ("with no other transition"): an operation run in a state whose row does not have it leaves the
state as it is. The model's reading (log 9). -/
def Obligations.OperationsOutsideTheirStatesDoNothing : Prop :=
  ∀ s : State,
    (s.st ∉ [St.aSend, .dSend, .tSend] → ∀ i f, encode i = some (.transmit, f) → exec i s = .next s) ∧
    (s.st ∉ [St.aWait, .dWait, .tWait] → exec .ackOk s = .next s ∧ ∀ v, exec (.ackOther v) s = .next s) ∧
    (s.st ∉ [St.aSend, .dSend, .tSend, .aWait, .dWait, .tWait] → exec .sendAndAwaitAck s = .next s) ∧
    (s.st ≠ .dRead → exec .readChunk s = .next s) ∧
    (s.st ∉ [St.dReport, .fReport] → exec .reportProgress s = .next s)

/-- 60_exceptions.md R152 (where, by R153): a step that enters FAULT appends its own event, no purge, frame or report
after it, records the code and value of its row and the state it was taken in, and changes no other register; no state
outside the table faults. -/
def Obligations.FaultEntryIsPrecise : Prop :=
  ∀ (s t : State), s.st ≠ .fault → step s = .next t → t.st = .fault →
    let n := min 1024 s.remaining.toNat
    t.faultAt = s.st.code ∧
    ((s.st = .opening ∧ s.openAnswer = .notFound ∧ t.faultCode = 5 ∧ t.faultValue = 0 ∧
       t.trace = s.trace ++ [.opened .notFound]) ∨
     (s.st ∈ [St.aSend, .dSend, .tSend] ∧ s.txAnswer = .timeout ∧ t.faultCode = 4 ∧ t.faultValue = 0 ∧
       t.trace = s.trace ++ [.tx s.frame .timeout]) ∨
     (s.st ∈ [St.aSend, .dSend, .tSend] ∧ s.txAnswer = .ioerr ∧ t.faultCode = 3 ∧ t.faultValue = 0 ∧
       t.trace = s.trace ++ [.tx s.frame .ioerr]) ∨
     (s.st ∈ [St.aWait, .dWait, .tWait] ∧ s.rxAnswer = .timeout ∧ t.faultCode = 1 ∧ t.faultValue = 0 ∧
       t.trace = s.trace ++ [.rx .timeout]) ∨
     (s.st ∈ [St.aWait, .dWait, .tWait] ∧ s.rxAnswer = .ioerr ∧ t.faultCode = 3 ∧ t.faultValue = 0 ∧
       t.trace = s.trace ++ [.rx .ioerr]) ∨
     (s.st ∈ [St.aWait, .dWait, .tWait] ∧ s.rxAnswer = .byte t.faultValue ∧ t.faultValue ≠ 0xAA ∧ t.faultCode = 2 ∧
       t.trace = s.trace ++ [.rx (.byte t.faultValue)]) ∨
     (s.st = .dRead ∧ s.remaining ≠ 0 ∧ t.faultCode = 6 ∧ t.faultValue = 0 ∧
       ((s.readAnswer n = .eos ∧ t.trace = s.trace ++ [.read n .eos]) ∨
        (s.readAnswer n = .ioerr ∧ t.trace = s.trace ++ [.read n .ioerr])))) ∧
    t.reqLength = s.reqLength ∧ t.reqAddress = s.reqAddress ∧ t.reqTerm = s.reqTerm ∧ t.frameCount = s.frameCount ∧
    t.frameNumber = s.frameNumber ∧ t.remaining = s.remaining ∧ t.frameBuf = s.frameBuf ∧ t.frameLen = s.frameLen

/-- 60_exceptions.md R156, R157: in FAULT only START and RESET change `st` or the fault registers, whatever operation
runs. What an operation run in FAULT leaves is the model's reading (log 9, log 10, log 11). -/
def Obligations.FaultIsHeldUntilStartOrReset : Prop :=
  ∀ (i : Instr) (s t : State), s.st = .fault → (∀ len addr term, i ≠ .start len addr term) → i ≠ .reset →
    exec i s = .next t →
    t.st = .fault ∧ t.faultCode = s.faultCode ∧ t.faultValue = s.faultValue ∧ t.faultAt = s.faultAt ∧ t.trace = s.trace

/-- 10_state.md R38 with R22 to R27: who writes which register. Over every operation: the request and the frame count are
written only by START and RESET, the counters also by READ_CHUNK, the frame registers also by the builders and
REPORT_PROGRESS, the host port by none, the result of CHECKSUM by it alone. What an operation leaves outside its states is
the model's reading (log 9, log 10), and the answers and `checksumResult` are its own (log 1, log 13). -/
def Obligations.EveryRegisterHasItsWriters : Prop :=
  ∀ (i : Instr) (s t : State), (∀ len addr term, i ≠ .start len addr term) → i ≠ .reset → exec i s = .next t →
    t.reqLength = s.reqLength ∧ t.reqAddress = s.reqAddress ∧ t.reqTerm = s.reqTerm ∧ t.frameCount = s.frameCount ∧
    t.hostIn = s.hostIn ∧ t.openIn = s.openIn ∧
    (i ≠ .readChunk → t.frameNumber = s.frameNumber ∧ t.remaining = s.remaining ∧ t.readIn = s.readIn) ∧
    (i ≠ .readChunk → i ≠ .reportProgress → (∀ len addr, i ≠ .buildAnnounce len addr) →
      (∀ seq payload, i ≠ .buildData seq payload) → (∀ seq, i ≠ .buildTerminate seq) →
      t.frameBuf = s.frameBuf ∧ t.frameLen = s.frameLen) ∧
    ((∀ bytes, i ≠ .checksum bytes) → t.checksumResult = s.checksumResult) ∧
    (t.st ≠ .fault → t.faultCode = s.faultCode ∧ t.faultValue = s.faultValue ∧ t.faultAt = s.faultAt)

/-- 10_state.md R22, R23: between START and the end of a transfer no step writes the request or the frame count; only a
command does. -/
def Obligations.RequestIsImmutableDuringATransfer : Prop :=
  ∀ (s t : State), (s.command = none ∨ (s.st ∉ restStates ∧ s.command ≠ some .reset)) → step s = .next t →
    t.reqLength = s.reqLength ∧ t.reqAddress = s.reqAddress ∧ t.reqTerm = s.reqTerm ∧ t.frameCount = s.frameCount

/-- 20_memory.md R67: without a command, a step changes the frame buffer only where a builder runs (OPEN, `D_READ`,
`F_REPORT`), and then every byte from the new frame's end on is kept. -/
def Obligations.OnlyTheBuildersWriteTheFrameBuffer : Prop :=
  ∀ (s t : State), s.command = none → step s = .next t →
    (s.st ∉ [St.opening, .dRead, .fReport] → t.frameBuf = s.frameBuf ∧ t.frameLen = s.frameLen) ∧
    ∀ k, t.frameLen ≤ k → t.frameBuf[k]? = s.frameBuf[k]?

/-! ### Invariants that every step keeps -/

/-- 10_state.md R40 (a) to (d), R26: the register invariants hold after reset. -/
def Obligations.ResetHasTheRegisterInvariants : Prop := Inv State.reset

/-- 10_state.md R40: every step keeps the register invariants, with every answer and every command. -/
def Obligations.StepKeepsTheRegisterInvariants : Prop :=
  ∀ (s t : State), Inv s → step s = .next t → Inv t

/-- 00_scope.md R9: under the register invariants no counter and no product of the engine overflows 32 bits. -/
def Obligations.NoRegisterOverflows : Prop :=
  ∀ s : State, Inv s → s.frameNumber.toNat ≤ s.frameCount.toNat ∧ s.frameCount.toNat ≤ 2 ^ 22 ∧
    s.frameNumber.toNat + 1 ≤ 2 ^ 22 + 1 ∧ s.frameNumber.toNat * 100 ≤ 419430400 ∧
    (s.frameNumber + 1).toNat = s.frameNumber.toNat + 1

/-- 10_state.md R40 (a), (e), R24, 43_transfer.md R136: every step keeps the chunk accounting. -/
def Obligations.StepKeepsTheChunkAccounting : Prop :=
  ∀ (s t : State), Inv s → ChunkInv s → step s = .next t → ChunkInv t

/-- 20_memory.md R67, 43_transfer.md R122, R124, R129: every step keeps it that the buffer holds the announce frame of
the request, the data frame of the last chunk read, or the terminate frame, while it is sent and acknowledged. -/
def Obligations.StepKeepsTheFrameBeingSent : Prop :=
  ∀ (s t : State), FrameInv s → step s = .next t → FrameInv t

/-- 30_encoding.md R81, 20_memory.md R67: every frame a step writes is a well-formed frame of one of the three kinds. -/
def Obligations.EveryFrameWrittenIsWellFormed : Prop :=
  ∀ (s t : State) (es : List Event) (f : ByteStr) (a : WriteAnswer), FrameInv s → step s = .next t →
    t.trace = s.trace ++ es → .tx f a ∈ es →
    ∃ i, decode .transmit f = .ok i ∧ i.wf = true ∧ f.length ≤ 1029

/-- 20_memory.md R61 to R63, 42_handshake.md R113 to R115: every step keeps the order of the wire events: no frame
before the last one's reply, the purge pair after each accepted reply and never after a fault. -/
def Obligations.StepKeepsTheOrderOfWireEvents : Prop :=
  ∀ (s t : State), WireInv s → step s = .next t → WireInv t

/-- 43_transfer.md R139: every step keeps it that reports are in 0 to 100, never decrease within a transfer and end in
100. -/
def Obligations.StepKeepsTheReportsInOrder : Prop :=
  ∀ (s t : State), Inv s → ReportInv s → step s = .next t → ReportInv t

/-- The chunk, frame, wire and report invariants hold after reset, beside the register invariants. -/
def Obligations.ResetHasTheTraceInvariants : Prop :=
  ChunkInv State.reset ∧ FrameInv State.reset ∧ WireInv State.reset ∧ ReportInv State.reset

/-! ### Whole transfers -/

/-- 10_state.md R26, R28(f): what a step does depends on no byte of `frameBuf` outside the frame and on nothing of the
past: from two states that differ only there, a step appends the same events and leaves two such states. -/
def Obligations.NothingOfThePastShows : Prop :=
  ∀ (s₁ s₂ t₁ t₂ : State), SameButPast s₁ s₂ → step s₁ = .next t₁ → step s₂ = .next t₂ →
    SameButPast t₁ t₂ ∧ ∃ es, t₁.trace = s₁.trace ++ es ∧ t₂.trace = s₂.trace ++ es

/-- 10_state.md R28(f), 43_transfer.md R120: START leaves nothing of the transfer before it: any two states at rest with
the same answers to come differ after it only in the past. -/
def Obligations.StartForgetsTheTransferBefore : Prop :=
  ∀ (len addr : Word) (term : Bool) (s₁ s₂ t₁ t₂ : State), s₁.st ∈ restStates → s₂.st ∈ restStates →
    s₁.hostIn = s₂.hostIn → s₁.openIn = s₂.openIn → s₁.readIn = s₂.readIn → s₁.txIn = s₂.txIn →
    s₁.rxIn = s₂.rxIn → s₁.freeCount = s₂.freeCount →
    exec (.start len addr term) s₁ = .next t₁ → exec (.start len addr term) s₂ = .next t₂ → SameButPast t₁ t₂

/-- 70_reset_and_hazards.md R193: with no further command, a started transfer of `len` bytes is in DONE or FAULT after
at most `4 + 4 * ceil(len / 1024) + 3` steps, whatever the environment answers. It rests on every request being answered
in its step (log 24; 92_eei_decisions.md D31). -/
def Obligations.EveryTransferEndsWithinTheBound : Prop :=
  ∀ (len addr : Word) (term : Bool) (s s₁ : State), s.st ∈ restStates → Quiet s →
    exec (.start len addr term) s = .next s₁ →
    ∃ (k : Nat) (t : State), k ≤ 4 + 4 * ((len.toNat + 1023) / 1024) + 3 ∧
      Host.Core.run Sys2Proof.core k s₁ = .next t ∧ (t.st = .done ∨ t.st = .fault)

/-- 43_transfer.md R133: the transfer as one function. From any state at rest, with no further command and every answer
successful, a transfer of any length ends in DONE with exactly R133's trace, all frames sent and nothing remaining. How the answers are
listed and consumed is the model's choice (log 1). -/
def Obligations.SuccessfulTransferHasExactlyItsTrace : Prop :=
  ∀ (len addr : Word) (term : Bool) (cs : List ByteStr) (s : State) (os : List OpenAnswer) (rs : List ReadAnswer)
    (ws : List WriteAnswer) (xs : List RxAnswer),
    s.st ∈ restStates → Quiet s → IsChunking len.toNat cs →
    s.openIn = .ok :: os → s.readIn = cs.map .data ++ rs →
    s.txIn = List.replicate (1 + cs.length + (if term then 1 else 0)) .ok ++ ws →
    s.rxIn = List.replicate (1 + cs.length + (if term then 1 else 0)) (.byte 0xAA) ++ xs →
    ∃ s₁ t, exec (.start len addr term) s = .next s₁ ∧
      Host.Core.run Sys2Proof.core (5 + 4 * cs.length + (if term then 2 else 0)) s₁ = .next t ∧
      t.st = .done ∧ t.trace = s.trace ++ .start len addr term :: successTrace len addr term cs ∧
      t.frameNumber.toNat = cs.length ∧ t.frameCount.toNat = cs.length ∧ t.remaining = 0 ∧ t.faultCode = 0 ∧
      t.openIn = os ∧ t.readIn = rs ∧ t.txIn = ws ∧ t.rxIn = xs
end

