-- ==== Sys2Proof/Laws/Encoding.lean ====
section
/-! SUPPORT. The byte-order primitives undo each other, and the lengths of the frame bodies. -/

namespace Sys2Proof.Machine

@[simp] theorem be16_length (v : Half) : (be16 v).length = 2 := rfl

@[simp] theorem be32_length (v : Word) : (be32 v).length = 4 := rfl

/-- Bits above the low part of a concatenation are the high part's. -/
theorem extract_append_high {n m : Nat} (a : BitVec n) (b : BitVec m) (k l : Nat) :
    (a ++ b).extractLsb' (m + k) l = a.extractLsb' k l := by
  ext i hi
  simp only [BitVec.getElem_extractLsb', BitVec.getLsbD_append]
  rw [if_neg (by omega)]
  congr 1; omega

/-- Bits inside the low part of a concatenation are the low part's. -/
theorem extract_append_low {n m : Nat} (a : BitVec n) (b : BitVec m) {k l : Nat} (h : k + l ≤ m) :
    (a ++ b).extractLsb' k l = b.extractLsb' k l := by
  ext i hi
  simp only [BitVec.getElem_extractLsb', BitVec.getLsbD_append]
  rw [if_pos (by omega)]

/-- Two neighbouring slices concatenated are one slice. -/
theorem extract_join {w : Nat} (v : BitVec w) (k n m : Nat) :
    v.extractLsb' (k + m) n ++ v.extractLsb' k m = v.extractLsb' k (n + m) := by
  ext i hi
  simp only [BitVec.getElem_append, BitVec.getElem_extractLsb']
  split
  · rfl
  · congr 1; omega

/-- The slice that is everything. -/
theorem extract_whole {w : Nat} (v : BitVec w) : v.extractLsb' 0 w = v := by
  ext i hi
  simp

theorem be16_ofBe16 (b1 b0 : Byte) : be16 (ofBe16 b1 b0) = [b1, b0] := by
  have h1 : (ofBe16 b1 b0).extractLsb' 8 8 = b1 := (extract_append_high b1 b0 0 8).trans (extract_whole b1)
  have h0 : (ofBe16 b1 b0).extractLsb' 0 8 = b0 :=
    (extract_append_low b1 b0 (k := 0) (l := 8) (by omega)).trans (extract_whole b0)
  rw [be16, h1, h0]

theorem be32_ofBe32 (b3 b2 b1 b0 : Byte) : be32 (ofBe32 b3 b2 b1 b0) = [b3, b2, b1, b0] := by
  have h3 : (ofBe32 b3 b2 b1 b0).extractLsb' 24 8 = b3 :=
    (extract_append_high (b3 ++ b2 ++ b1) b0 16 8).trans ((extract_append_high (b3 ++ b2) b1 8 8).trans
      ((extract_append_high b3 b2 0 8).trans (extract_whole b3)))
  have h2 : (ofBe32 b3 b2 b1 b0).extractLsb' 16 8 = b2 :=
    (extract_append_high (b3 ++ b2 ++ b1) b0 8 8).trans ((extract_append_high (b3 ++ b2) b1 0 8).trans
      ((extract_append_low b3 b2 (k := 0) (l := 8) (by omega)).trans (extract_whole b2)))
  have h1 : (ofBe32 b3 b2 b1 b0).extractLsb' 8 8 = b1 :=
    (extract_append_high (b3 ++ b2 ++ b1) b0 0 8).trans
      ((extract_append_low (b3 ++ b2) b1 (k := 0) (l := 8) (by omega)).trans (extract_whole b1))
  have h0 : (ofBe32 b3 b2 b1 b0).extractLsb' 0 8 = b0 :=
    (extract_append_low (b3 ++ b2 ++ b1) b0 (k := 0) (l := 8) (by omega)).trans (extract_whole b0)
  rw [be32, h3, h2, h1, h0]

theorem ofBe16_be16 (v : Half) : ofBe16 (v.extractLsb' 8 8) (v.extractLsb' 0 8) = v :=
  (extract_join v 0 8 8).trans (extract_whole v)

theorem ofBe32_be32 (v : Word) : ofBe32 (v.extractLsb' 24 8) (v.extractLsb' 16 8) (v.extractLsb' 8 8)
    (v.extractLsb' 0 8) = v := by
  have h2 : v.extractLsb' 24 8 ++ v.extractLsb' 16 8 = v.extractLsb' 16 (8 + 8) := extract_join v 16 8 8
  have h1 : v.extractLsb' 16 (8 + 8) ++ v.extractLsb' 8 8 = v.extractLsb' 8 (8 + 8 + 8) := extract_join v 8 (8 + 8) 8
  rw [ofBe32, h2, h1]
  exact (extract_join v 0 (8 + 8 + 8) 8).trans (extract_whole v)

/-- `lo8` is bits 7 to 0 (R11). -/
theorem lo8_eq_extract (v : Word) : lo8 v = v.extractLsb' 0 8 := by
  ext i hi
  simp [lo8]

/-- `lo8` is the value mod 256 (R11). -/
@[simp] theorem lo8_toNat (v : Word) : (lo8 v).toNat = v.toNat % 256 := by simp [lo8]

/-- `cpl8` is 255 less the byte (R11). -/
@[simp] theorem cpl8_toNat (b : Byte) : (cpl8 b).toNat = 255 - b.toNat := by
  have := b.isLt
  simp only [cpl8, BitVec.toNat_sub, BitVec.toNat_ofNat]
  omega

@[simp] theorem announceBody_length (l a : Word) : (announceBody l a).length = 12 := rfl

@[simp] theorem dataBytes_length (q nq : Byte) (p : ByteStr) : (dataBytes q nq p).length = 3 + p.length := by
  simp [dataBytes]; omega

@[simp] theorem dataBody_length (q : Byte) (p : ByteStr) : (dataBody q p).length = 3 + p.length := by
  simp [dataBody]

@[simp] theorem terminateBytes_length (q nq : Byte) : (terminateBytes q nq).length = 3 := rfl

@[simp] theorem terminateBody_length (q : Byte) : (terminateBody q).length = 3 := rfl

@[simp] theorem withChecksum_length (b : ByteStr) : (withChecksum b).length = b.length + 2 := by
  simp [withChecksum]

/-- A chunk is never longer than 1024 bytes nor than what remains (R124). -/
theorem chunkLen_bounds (r : Word) : chunkLen r ≤ 1024 ∧ chunkLen r ≤ r.toNat := by
  simp [chunkLen, Config.CHUNK_SIZE]

end Sys2Proof.Machine
end

