-- ==== Sys2Proof/Laws/State.lean ====
section
/-! SUPPORT. One lemma per field per update of the state, so that no later proof unfolds a record update. The updates
are those of Machine/Ops.lean; `raise` and the consumption of an answer are stated for the fields they keep. -/

namespace Sys2Proof.Machine.State

variable (s : State)

/-! ### `setSt` -/

@[simp] theorem setSt_st (x : St) : (s.setSt x).st = x := rfl
@[simp] theorem setSt_reqLength (x : St) : (s.setSt x).reqLength = s.reqLength := rfl
@[simp] theorem setSt_reqAddress (x : St) : (s.setSt x).reqAddress = s.reqAddress := rfl
@[simp] theorem setSt_reqTerm (x : St) : (s.setSt x).reqTerm = s.reqTerm := rfl
@[simp] theorem setSt_frameCount (x : St) : (s.setSt x).frameCount = s.frameCount := rfl
@[simp] theorem setSt_frameNumber (x : St) : (s.setSt x).frameNumber = s.frameNumber := rfl
@[simp] theorem setSt_remaining (x : St) : (s.setSt x).remaining = s.remaining := rfl
@[simp] theorem setSt_frameBuf (x : St) : (s.setSt x).frameBuf = s.frameBuf := rfl
@[simp] theorem setSt_frameLen (x : St) : (s.setSt x).frameLen = s.frameLen := rfl
@[simp] theorem setSt_faultCode (x : St) : (s.setSt x).faultCode = s.faultCode := rfl
@[simp] theorem setSt_faultValue (x : St) : (s.setSt x).faultValue = s.faultValue := rfl
@[simp] theorem setSt_faultAt (x : St) : (s.setSt x).faultAt = s.faultAt := rfl
@[simp] theorem setSt_trace (x : St) : (s.setSt x).trace = s.trace := rfl
@[simp] theorem setSt_hostIn (x : St) : (s.setSt x).hostIn = s.hostIn := rfl
@[simp] theorem setSt_openIn (x : St) : (s.setSt x).openIn = s.openIn := rfl
@[simp] theorem setSt_readIn (x : St) : (s.setSt x).readIn = s.readIn := rfl
@[simp] theorem setSt_txIn (x : St) : (s.setSt x).txIn = s.txIn := rfl
@[simp] theorem setSt_rxIn (x : St) : (s.setSt x).rxIn = s.rxIn := rfl
@[simp] theorem setSt_freeCount (x : St) : (s.setSt x).freeCount = s.freeCount := rfl
@[simp] theorem setSt_checksumResult (x : St) : (s.setSt x).checksumResult = s.checksumResult := rfl

/-! ### `emit` -/

@[simp] theorem emit_st (e : Event) : (s.emit e).st = s.st := rfl
@[simp] theorem emit_reqLength (e : Event) : (s.emit e).reqLength = s.reqLength := rfl
@[simp] theorem emit_reqAddress (e : Event) : (s.emit e).reqAddress = s.reqAddress := rfl
@[simp] theorem emit_reqTerm (e : Event) : (s.emit e).reqTerm = s.reqTerm := rfl
@[simp] theorem emit_frameCount (e : Event) : (s.emit e).frameCount = s.frameCount := rfl
@[simp] theorem emit_frameNumber (e : Event) : (s.emit e).frameNumber = s.frameNumber := rfl
@[simp] theorem emit_remaining (e : Event) : (s.emit e).remaining = s.remaining := rfl
@[simp] theorem emit_frameBuf (e : Event) : (s.emit e).frameBuf = s.frameBuf := rfl
@[simp] theorem emit_frameLen (e : Event) : (s.emit e).frameLen = s.frameLen := rfl
@[simp] theorem emit_faultCode (e : Event) : (s.emit e).faultCode = s.faultCode := rfl
@[simp] theorem emit_faultValue (e : Event) : (s.emit e).faultValue = s.faultValue := rfl
@[simp] theorem emit_faultAt (e : Event) : (s.emit e).faultAt = s.faultAt := rfl
@[simp] theorem emit_trace (e : Event) : (s.emit e).trace = s.trace ++ [e] := rfl
@[simp] theorem emit_hostIn (e : Event) : (s.emit e).hostIn = s.hostIn := rfl
@[simp] theorem emit_openIn (e : Event) : (s.emit e).openIn = s.openIn := rfl
@[simp] theorem emit_readIn (e : Event) : (s.emit e).readIn = s.readIn := rfl
@[simp] theorem emit_txIn (e : Event) : (s.emit e).txIn = s.txIn := rfl
@[simp] theorem emit_rxIn (e : Event) : (s.emit e).rxIn = s.rxIn := rfl
@[simp] theorem emit_freeCount (e : Event) : (s.emit e).freeCount = s.freeCount := rfl
@[simp] theorem emit_checksumResult (e : Event) : (s.emit e).checksumResult = s.checksumResult := rfl

/-! ### `afterHost` -/

@[simp] theorem afterHost_st : (s.afterHost).st = s.st := rfl
@[simp] theorem afterHost_reqLength : (s.afterHost).reqLength = s.reqLength := rfl
@[simp] theorem afterHost_reqAddress : (s.afterHost).reqAddress = s.reqAddress := rfl
@[simp] theorem afterHost_reqTerm : (s.afterHost).reqTerm = s.reqTerm := rfl
@[simp] theorem afterHost_frameCount : (s.afterHost).frameCount = s.frameCount := rfl
@[simp] theorem afterHost_frameNumber : (s.afterHost).frameNumber = s.frameNumber := rfl
@[simp] theorem afterHost_remaining : (s.afterHost).remaining = s.remaining := rfl
@[simp] theorem afterHost_frameBuf : (s.afterHost).frameBuf = s.frameBuf := rfl
@[simp] theorem afterHost_frameLen : (s.afterHost).frameLen = s.frameLen := rfl
@[simp] theorem afterHost_faultCode : (s.afterHost).faultCode = s.faultCode := rfl
@[simp] theorem afterHost_faultValue : (s.afterHost).faultValue = s.faultValue := rfl
@[simp] theorem afterHost_faultAt : (s.afterHost).faultAt = s.faultAt := rfl
@[simp] theorem afterHost_trace : (s.afterHost).trace = s.trace := rfl
@[simp] theorem afterHost_hostIn : (s.afterHost).hostIn = s.hostIn.tail := rfl
@[simp] theorem afterHost_openIn : (s.afterHost).openIn = s.openIn := rfl
@[simp] theorem afterHost_readIn : (s.afterHost).readIn = s.readIn := rfl
@[simp] theorem afterHost_txIn : (s.afterHost).txIn = s.txIn := rfl
@[simp] theorem afterHost_rxIn : (s.afterHost).rxIn = s.rxIn := rfl
@[simp] theorem afterHost_freeCount : (s.afterHost).freeCount = s.freeCount := rfl
@[simp] theorem afterHost_checksumResult : (s.afterHost).checksumResult = s.checksumResult := rfl

/-! ### `storeFrame` -/

@[simp] theorem storeFrame_st (f : ByteStr) : (s.storeFrame f).st = s.st := rfl
@[simp] theorem storeFrame_reqLength (f : ByteStr) : (s.storeFrame f).reqLength = s.reqLength := rfl
@[simp] theorem storeFrame_reqAddress (f : ByteStr) : (s.storeFrame f).reqAddress = s.reqAddress := rfl
@[simp] theorem storeFrame_reqTerm (f : ByteStr) : (s.storeFrame f).reqTerm = s.reqTerm := rfl
@[simp] theorem storeFrame_frameCount (f : ByteStr) : (s.storeFrame f).frameCount = s.frameCount := rfl
@[simp] theorem storeFrame_frameNumber (f : ByteStr) : (s.storeFrame f).frameNumber = s.frameNumber := rfl
@[simp] theorem storeFrame_remaining (f : ByteStr) : (s.storeFrame f).remaining = s.remaining := rfl
@[simp] theorem storeFrame_frameBuf (f : ByteStr) : (s.storeFrame f).frameBuf = f ++ s.frameBuf.drop f.length := rfl
@[simp] theorem storeFrame_frameLen (f : ByteStr) : (s.storeFrame f).frameLen = f.length := rfl
@[simp] theorem storeFrame_faultCode (f : ByteStr) : (s.storeFrame f).faultCode = s.faultCode := rfl
@[simp] theorem storeFrame_faultValue (f : ByteStr) : (s.storeFrame f).faultValue = s.faultValue := rfl
@[simp] theorem storeFrame_faultAt (f : ByteStr) : (s.storeFrame f).faultAt = s.faultAt := rfl
@[simp] theorem storeFrame_trace (f : ByteStr) : (s.storeFrame f).trace = s.trace := rfl
@[simp] theorem storeFrame_hostIn (f : ByteStr) : (s.storeFrame f).hostIn = s.hostIn := rfl
@[simp] theorem storeFrame_openIn (f : ByteStr) : (s.storeFrame f).openIn = s.openIn := rfl
@[simp] theorem storeFrame_readIn (f : ByteStr) : (s.storeFrame f).readIn = s.readIn := rfl
@[simp] theorem storeFrame_txIn (f : ByteStr) : (s.storeFrame f).txIn = s.txIn := rfl
@[simp] theorem storeFrame_rxIn (f : ByteStr) : (s.storeFrame f).rxIn = s.rxIn := rfl
@[simp] theorem storeFrame_freeCount (f : ByteStr) : (s.storeFrame f).freeCount = s.freeCount := rfl
@[simp] theorem storeFrame_checksumResult (f : ByteStr) : (s.storeFrame f).checksumResult = s.checksumResult := rfl

/-! ### `latch` -/

@[simp] theorem latch_st (len addr : Word) (term : Bool) : (s.latch len addr term).st = .opening := rfl
@[simp] theorem latch_reqLength (len addr : Word) (term : Bool) : (s.latch len addr term).reqLength = len := rfl
@[simp] theorem latch_reqAddress (len addr : Word) (term : Bool) : (s.latch len addr term).reqAddress = addr := rfl
@[simp] theorem latch_reqTerm (len addr : Word) (term : Bool) : (s.latch len addr term).reqTerm = term := rfl
@[simp] theorem latch_frameCount (len addr : Word) (term : Bool) : (s.latch len addr term).frameCount = frameCountOf len := rfl
@[simp] theorem latch_frameNumber (len addr : Word) (term : Bool) : (s.latch len addr term).frameNumber = 0 := rfl
@[simp] theorem latch_remaining (len addr : Word) (term : Bool) : (s.latch len addr term).remaining = len := rfl
@[simp] theorem latch_frameBuf (len addr : Word) (term : Bool) : (s.latch len addr term).frameBuf = s.frameBuf := rfl
@[simp] theorem latch_frameLen (len addr : Word) (term : Bool) : (s.latch len addr term).frameLen = 0 := rfl
@[simp] theorem latch_faultCode (len addr : Word) (term : Bool) : (s.latch len addr term).faultCode = 0 := rfl
@[simp] theorem latch_faultValue (len addr : Word) (term : Bool) : (s.latch len addr term).faultValue = 0 := rfl
@[simp] theorem latch_faultAt (len addr : Word) (term : Bool) : (s.latch len addr term).faultAt = 0 := rfl
@[simp] theorem latch_trace (len addr : Word) (term : Bool) : (s.latch len addr term).trace = s.trace ++ [.start len addr term] := rfl
@[simp] theorem latch_hostIn (len addr : Word) (term : Bool) : (s.latch len addr term).hostIn = s.hostIn := rfl
@[simp] theorem latch_openIn (len addr : Word) (term : Bool) : (s.latch len addr term).openIn = s.openIn := rfl
@[simp] theorem latch_readIn (len addr : Word) (term : Bool) : (s.latch len addr term).readIn = s.readIn := rfl
@[simp] theorem latch_txIn (len addr : Word) (term : Bool) : (s.latch len addr term).txIn = s.txIn := rfl
@[simp] theorem latch_rxIn (len addr : Word) (term : Bool) : (s.latch len addr term).rxIn = s.rxIn := rfl
@[simp] theorem latch_freeCount (len addr : Word) (term : Bool) : (s.latch len addr term).freeCount = s.freeCount := rfl
@[simp] theorem latch_checksumResult (len addr : Word) (term : Bool) : (s.latch len addr term).checksumResult = s.checksumResult := rfl

/-! ### `resetRegisters` -/

@[simp] theorem resetRegisters_st : (s.resetRegisters).st = .idle := rfl
@[simp] theorem resetRegisters_reqLength : (s.resetRegisters).reqLength = 0 := rfl
@[simp] theorem resetRegisters_reqAddress : (s.resetRegisters).reqAddress = 0 := rfl
@[simp] theorem resetRegisters_reqTerm : (s.resetRegisters).reqTerm = false := rfl
@[simp] theorem resetRegisters_frameCount : (s.resetRegisters).frameCount = 0 := rfl
@[simp] theorem resetRegisters_frameNumber : (s.resetRegisters).frameNumber = 0 := rfl
@[simp] theorem resetRegisters_remaining : (s.resetRegisters).remaining = 0 := rfl
@[simp] theorem resetRegisters_frameBuf : (s.resetRegisters).frameBuf = freeFrameBuf s.freeCount := by
  simp only [resetRegisters]
@[simp] theorem resetRegisters_frameLen : (s.resetRegisters).frameLen = 0 := rfl
@[simp] theorem resetRegisters_faultCode : (s.resetRegisters).faultCode = 0 := rfl
@[simp] theorem resetRegisters_faultValue : (s.resetRegisters).faultValue = 0 := rfl
@[simp] theorem resetRegisters_faultAt : (s.resetRegisters).faultAt = 0 := rfl
@[simp] theorem resetRegisters_trace : (s.resetRegisters).trace = s.trace ++ [.reset] := rfl
@[simp] theorem resetRegisters_hostIn : (s.resetRegisters).hostIn = s.hostIn := rfl
@[simp] theorem resetRegisters_openIn : (s.resetRegisters).openIn = s.openIn := rfl
@[simp] theorem resetRegisters_readIn : (s.resetRegisters).readIn = s.readIn := rfl
@[simp] theorem resetRegisters_txIn : (s.resetRegisters).txIn = s.txIn := rfl
@[simp] theorem resetRegisters_rxIn : (s.resetRegisters).rxIn = s.rxIn := rfl
@[simp] theorem resetRegisters_freeCount : (s.resetRegisters).freeCount = s.freeCount + 1 := rfl
@[simp] theorem resetRegisters_checksumResult : (s.resetRegisters).checksumResult = s.checksumResult := rfl

/-! ### `raise`: in FAULT nothing, elsewhere R152 -/

@[simp] theorem raise_reqLength (k : FaultKind) (v : Byte) : (s.raise k v).reqLength = s.reqLength := by
  unfold raise; split <;> rfl
@[simp] theorem raise_reqAddress (k : FaultKind) (v : Byte) : (s.raise k v).reqAddress = s.reqAddress := by
  unfold raise; split <;> rfl
@[simp] theorem raise_reqTerm (k : FaultKind) (v : Byte) : (s.raise k v).reqTerm = s.reqTerm := by
  unfold raise; split <;> rfl
@[simp] theorem raise_frameCount (k : FaultKind) (v : Byte) : (s.raise k v).frameCount = s.frameCount := by
  unfold raise; split <;> rfl
@[simp] theorem raise_frameNumber (k : FaultKind) (v : Byte) : (s.raise k v).frameNumber = s.frameNumber := by
  unfold raise; split <;> rfl
@[simp] theorem raise_remaining (k : FaultKind) (v : Byte) : (s.raise k v).remaining = s.remaining := by
  unfold raise; split <;> rfl
@[simp] theorem raise_frameBuf (k : FaultKind) (v : Byte) : (s.raise k v).frameBuf = s.frameBuf := by
  unfold raise; split <;> rfl
@[simp] theorem raise_frameLen (k : FaultKind) (v : Byte) : (s.raise k v).frameLen = s.frameLen := by
  unfold raise; split <;> rfl
@[simp] theorem raise_trace (k : FaultKind) (v : Byte) : (s.raise k v).trace = s.trace := by
  unfold raise; split <;> rfl
@[simp] theorem raise_hostIn (k : FaultKind) (v : Byte) : (s.raise k v).hostIn = s.hostIn := by
  unfold raise; split <;> rfl
@[simp] theorem raise_openIn (k : FaultKind) (v : Byte) : (s.raise k v).openIn = s.openIn := by
  unfold raise; split <;> rfl
@[simp] theorem raise_readIn (k : FaultKind) (v : Byte) : (s.raise k v).readIn = s.readIn := by
  unfold raise; split <;> rfl
@[simp] theorem raise_txIn (k : FaultKind) (v : Byte) : (s.raise k v).txIn = s.txIn := by
  unfold raise; split <;> rfl
@[simp] theorem raise_rxIn (k : FaultKind) (v : Byte) : (s.raise k v).rxIn = s.rxIn := by
  unfold raise; split <;> rfl
@[simp] theorem raise_freeCount (k : FaultKind) (v : Byte) : (s.raise k v).freeCount = s.freeCount := by
  unfold raise; split <;> rfl
@[simp] theorem raise_checksumResult (k : FaultKind) (v : Byte) : (s.raise k v).checksumResult = s.checksumResult := by
  unfold raise; split <;> rfl

@[simp] theorem raise_st (k : FaultKind) (v : Byte) : (s.raise k v).st = .fault := by
  unfold raise; split <;> simp_all

theorem raise_of_fault {k : FaultKind} {v : Byte} {s : State} (h : s.st = .fault) : s.raise k v = s := by
  simp [raise, h]

theorem raise_of_ne {k : FaultKind} {v : Byte} {s : State} (h : s.st ≠ .fault) :
    s.raise k v = { s with faultCode := k.code, faultValue := v, faultAt := s.st.code, st := .fault } := by
  simp [raise, h]

/-! ### `afterOpen` -/

@[simp] theorem afterOpen_st : s.afterOpen.st = s.st := by unfold afterOpen; split <;> rfl
@[simp] theorem afterOpen_reqLength : s.afterOpen.reqLength = s.reqLength := by unfold afterOpen; split <;> rfl
@[simp] theorem afterOpen_reqAddress : s.afterOpen.reqAddress = s.reqAddress := by unfold afterOpen; split <;> rfl
@[simp] theorem afterOpen_reqTerm : s.afterOpen.reqTerm = s.reqTerm := by unfold afterOpen; split <;> rfl
@[simp] theorem afterOpen_frameCount : s.afterOpen.frameCount = s.frameCount := by unfold afterOpen; split <;> rfl
@[simp] theorem afterOpen_frameNumber : s.afterOpen.frameNumber = s.frameNumber := by unfold afterOpen; split <;> rfl
@[simp] theorem afterOpen_remaining : s.afterOpen.remaining = s.remaining := by unfold afterOpen; split <;> rfl
@[simp] theorem afterOpen_frameBuf : s.afterOpen.frameBuf = s.frameBuf := by unfold afterOpen; split <;> rfl
@[simp] theorem afterOpen_frameLen : s.afterOpen.frameLen = s.frameLen := by unfold afterOpen; split <;> rfl
@[simp] theorem afterOpen_faultCode : s.afterOpen.faultCode = s.faultCode := by unfold afterOpen; split <;> rfl
@[simp] theorem afterOpen_faultValue : s.afterOpen.faultValue = s.faultValue := by unfold afterOpen; split <;> rfl
@[simp] theorem afterOpen_faultAt : s.afterOpen.faultAt = s.faultAt := by unfold afterOpen; split <;> rfl
@[simp] theorem afterOpen_trace : s.afterOpen.trace = s.trace := by unfold afterOpen; split <;> rfl
@[simp] theorem afterOpen_hostIn : s.afterOpen.hostIn = s.hostIn := by unfold afterOpen; split <;> rfl
@[simp] theorem afterOpen_readIn : s.afterOpen.readIn = s.readIn := by unfold afterOpen; split <;> rfl
@[simp] theorem afterOpen_txIn : s.afterOpen.txIn = s.txIn := by unfold afterOpen; split <;> rfl
@[simp] theorem afterOpen_rxIn : s.afterOpen.rxIn = s.rxIn := by unfold afterOpen; split <;> rfl
@[simp] theorem afterOpen_checksumResult : s.afterOpen.checksumResult = s.checksumResult := by unfold afterOpen; split <;> rfl

/-! ### `afterRead` -/

@[simp] theorem afterRead_st : s.afterRead.st = s.st := by unfold afterRead; split <;> rfl
@[simp] theorem afterRead_reqLength : s.afterRead.reqLength = s.reqLength := by unfold afterRead; split <;> rfl
@[simp] theorem afterRead_reqAddress : s.afterRead.reqAddress = s.reqAddress := by unfold afterRead; split <;> rfl
@[simp] theorem afterRead_reqTerm : s.afterRead.reqTerm = s.reqTerm := by unfold afterRead; split <;> rfl
@[simp] theorem afterRead_frameCount : s.afterRead.frameCount = s.frameCount := by unfold afterRead; split <;> rfl
@[simp] theorem afterRead_frameNumber : s.afterRead.frameNumber = s.frameNumber := by unfold afterRead; split <;> rfl
@[simp] theorem afterRead_remaining : s.afterRead.remaining = s.remaining := by unfold afterRead; split <;> rfl
@[simp] theorem afterRead_frameBuf : s.afterRead.frameBuf = s.frameBuf := by unfold afterRead; split <;> rfl
@[simp] theorem afterRead_frameLen : s.afterRead.frameLen = s.frameLen := by unfold afterRead; split <;> rfl
@[simp] theorem afterRead_faultCode : s.afterRead.faultCode = s.faultCode := by unfold afterRead; split <;> rfl
@[simp] theorem afterRead_faultValue : s.afterRead.faultValue = s.faultValue := by unfold afterRead; split <;> rfl
@[simp] theorem afterRead_faultAt : s.afterRead.faultAt = s.faultAt := by unfold afterRead; split <;> rfl
@[simp] theorem afterRead_trace : s.afterRead.trace = s.trace := by unfold afterRead; split <;> rfl
@[simp] theorem afterRead_hostIn : s.afterRead.hostIn = s.hostIn := by unfold afterRead; split <;> rfl
@[simp] theorem afterRead_openIn : s.afterRead.openIn = s.openIn := by unfold afterRead; split <;> rfl
@[simp] theorem afterRead_txIn : s.afterRead.txIn = s.txIn := by unfold afterRead; split <;> rfl
@[simp] theorem afterRead_rxIn : s.afterRead.rxIn = s.rxIn := by unfold afterRead; split <;> rfl
@[simp] theorem afterRead_checksumResult : s.afterRead.checksumResult = s.checksumResult := by unfold afterRead; split <;> rfl

/-! ### `afterTx` -/

@[simp] theorem afterTx_st : s.afterTx.st = s.st := by unfold afterTx; split <;> rfl
@[simp] theorem afterTx_reqLength : s.afterTx.reqLength = s.reqLength := by unfold afterTx; split <;> rfl
@[simp] theorem afterTx_reqAddress : s.afterTx.reqAddress = s.reqAddress := by unfold afterTx; split <;> rfl
@[simp] theorem afterTx_reqTerm : s.afterTx.reqTerm = s.reqTerm := by unfold afterTx; split <;> rfl
@[simp] theorem afterTx_frameCount : s.afterTx.frameCount = s.frameCount := by unfold afterTx; split <;> rfl
@[simp] theorem afterTx_frameNumber : s.afterTx.frameNumber = s.frameNumber := by unfold afterTx; split <;> rfl
@[simp] theorem afterTx_remaining : s.afterTx.remaining = s.remaining := by unfold afterTx; split <;> rfl
@[simp] theorem afterTx_frameBuf : s.afterTx.frameBuf = s.frameBuf := by unfold afterTx; split <;> rfl
@[simp] theorem afterTx_frameLen : s.afterTx.frameLen = s.frameLen := by unfold afterTx; split <;> rfl
@[simp] theorem afterTx_faultCode : s.afterTx.faultCode = s.faultCode := by unfold afterTx; split <;> rfl
@[simp] theorem afterTx_faultValue : s.afterTx.faultValue = s.faultValue := by unfold afterTx; split <;> rfl
@[simp] theorem afterTx_faultAt : s.afterTx.faultAt = s.faultAt := by unfold afterTx; split <;> rfl
@[simp] theorem afterTx_trace : s.afterTx.trace = s.trace := by unfold afterTx; split <;> rfl
@[simp] theorem afterTx_hostIn : s.afterTx.hostIn = s.hostIn := by unfold afterTx; split <;> rfl
@[simp] theorem afterTx_openIn : s.afterTx.openIn = s.openIn := by unfold afterTx; split <;> rfl
@[simp] theorem afterTx_readIn : s.afterTx.readIn = s.readIn := by unfold afterTx; split <;> rfl
@[simp] theorem afterTx_rxIn : s.afterTx.rxIn = s.rxIn := by unfold afterTx; split <;> rfl
@[simp] theorem afterTx_checksumResult : s.afterTx.checksumResult = s.checksumResult := by unfold afterTx; split <;> rfl

/-! ### `afterRx` -/

@[simp] theorem afterRx_st : s.afterRx.st = s.st := by unfold afterRx; split <;> rfl
@[simp] theorem afterRx_reqLength : s.afterRx.reqLength = s.reqLength := by unfold afterRx; split <;> rfl
@[simp] theorem afterRx_reqAddress : s.afterRx.reqAddress = s.reqAddress := by unfold afterRx; split <;> rfl
@[simp] theorem afterRx_reqTerm : s.afterRx.reqTerm = s.reqTerm := by unfold afterRx; split <;> rfl
@[simp] theorem afterRx_frameCount : s.afterRx.frameCount = s.frameCount := by unfold afterRx; split <;> rfl
@[simp] theorem afterRx_frameNumber : s.afterRx.frameNumber = s.frameNumber := by unfold afterRx; split <;> rfl
@[simp] theorem afterRx_remaining : s.afterRx.remaining = s.remaining := by unfold afterRx; split <;> rfl
@[simp] theorem afterRx_frameBuf : s.afterRx.frameBuf = s.frameBuf := by unfold afterRx; split <;> rfl
@[simp] theorem afterRx_frameLen : s.afterRx.frameLen = s.frameLen := by unfold afterRx; split <;> rfl
@[simp] theorem afterRx_faultCode : s.afterRx.faultCode = s.faultCode := by unfold afterRx; split <;> rfl
@[simp] theorem afterRx_faultValue : s.afterRx.faultValue = s.faultValue := by unfold afterRx; split <;> rfl
@[simp] theorem afterRx_faultAt : s.afterRx.faultAt = s.faultAt := by unfold afterRx; split <;> rfl
@[simp] theorem afterRx_trace : s.afterRx.trace = s.trace := by unfold afterRx; split <;> rfl
@[simp] theorem afterRx_hostIn : s.afterRx.hostIn = s.hostIn := by unfold afterRx; split <;> rfl
@[simp] theorem afterRx_openIn : s.afterRx.openIn = s.openIn := by unfold afterRx; split <;> rfl
@[simp] theorem afterRx_readIn : s.afterRx.readIn = s.readIn := by unfold afterRx; split <;> rfl
@[simp] theorem afterRx_txIn : s.afterRx.txIn = s.txIn := by unfold afterRx; split <;> rfl
@[simp] theorem afterRx_checksumResult : s.afterRx.checksumResult = s.checksumResult := by unfold afterRx; split <;> rfl

end Sys2Proof.Machine.State
end

