-- ==== Sys2Proof/Laws/Ops.lean ====
section
/-! SUPPORT. For each shared operation, once, everything it can do; provers cite these instead of unfolding it. -/

namespace Sys2Proof.Machine

/-! ### Reads of the environment do not see the host port, the trace or the registers -/

@[simp] theorem openAnswer_afterHost (s : State) : s.afterHost.openAnswer = s.openAnswer := rfl
@[simp] theorem readAnswer_afterHost (n : Nat) (s : State) : s.afterHost.readAnswer n = s.readAnswer n := rfl
@[simp] theorem txAnswer_afterHost (s : State) : s.afterHost.txAnswer = s.txAnswer := rfl
@[simp] theorem rxAnswer_afterHost (s : State) : s.afterHost.rxAnswer = s.rxAnswer := rfl
@[simp] theorem frame_afterHost (s : State) : s.afterHost.frame = s.frame := rfl

/-- A `DATA` answer has exactly the length asked for (10_state.md R32). -/
theorem conformRead_length {n : Nat} {a : ReadAnswer} {bytes : ByteStr} (h : conformRead n a = .data bytes) :
    bytes.length = n := by
  cases a with
  | data b =>
    simp only [conformRead] at h
    split at h
    · cases h; simpa using ‹n ≤ b.length›
    · cases h
  | eos => cases h
  | ioerr => cases h

theorem readAnswer_length {n : Nat} {s : State} {bytes : ByteStr} (h : s.readAnswer n = .data bytes) :
    bytes.length = n := by
  unfold State.readAnswer at h
  split at h <;> exact conformRead_length h

/-! ### The frame buffer (41_frame_builder.md R103) -/

@[simp] theorem storeFrame_frame (f : ByteStr) (s : State) : (s.storeFrame f).frame = f := by
  simp [State.frame]

/-- STORE keeps a buffer of 1029 bytes that long: the engine's counterpart of a memory that keeps its form. -/
theorem storeFrame_bufLength {f : ByteStr} {s : State} (h : s.frameBuf.length = 1029) (hf : f.length ≤ 1029) :
    (s.storeFrame f).frameBuf.length = 1029 := by
  simp only [State.storeFrame_frameBuf, List.length_append, List.length_drop, h]; omega

/-- STORE keeps every byte from the frame's end on. -/
theorem storeFrame_above {f : ByteStr} {s : State} {k : Nat} (h : f.length ≤ k) :
    (s.storeFrame f).frameBuf[k]? = s.frameBuf[k]? := by
  simp only [State.storeFrame_frameBuf, List.getElem?_append_right h, List.getElem?_drop]
  congr 1; omega

@[simp] theorem freeFrameBuf_length (k : Nat) : (freeFrameBuf k).length = 1029 := by
  simp [freeFrameBuf, Config.FRAME_BUF_SIZE]

/-! ### The builders -/

/-- BUILD_DATA's two results (R101). -/
theorem dataFrame_of_le {q : Byte} {p : ByteStr} (h : p.length ≤ 1024) :
    dataFrame q p = .ok (withChecksum (dataBody q p)) := by
  simp [dataFrame, Config.CHUNK_SIZE, h]

theorem dataFrame_of_gt {q : Byte} {p : ByteStr} (h : 1024 < p.length) :
    dataFrame q p = .error .invalidArgument := by
  simp [dataFrame, Config.CHUNK_SIZE, Nat.not_le.mpr h]

theorem dataFrame_ok {q : Byte} {p f : ByteStr} (h : dataFrame q p = .ok f) :
    p.length ≤ 1024 ∧ f = withChecksum (dataBody q p) := by
  unfold dataFrame at h
  split at h
  · cases h; exact ⟨‹_›, rfl⟩
  · cases h

/-! ### The states of the handshake -/

theorem afterSend_some {x w : St} (h : x.afterSend = some w) :
    (x = .aSend ∧ w = .aWait) ∨ (x = .dSend ∧ w = .dWait) ∨ (x = .tSend ∧ w = .tWait) := by
  cases x <;> simp_all [St.afterSend]

theorem afterAck_some {x n : St} (h : x.afterAck = some n) :
    (x = .aWait ∧ n = .dRead) ∨ (x = .dWait ∧ n = .dReport) ∨ (x = .tWait ∧ n = .done) := by
  cases x <;> simp_all [St.afterAck]

/-- Everything the SEND step can do (42_handshake.md R111). -/
theorem transmit_cases (f : ByteStr) (s : State) :
    (s.st.afterSend = none ∧ transmit f s = s) ∨
    ∃ w, s.st.afterSend = some w ∧
      ((s.txAnswer = .ok ∧ transmit f s = { s.afterTx with st := w, trace := s.trace ++ [.tx f .ok] }) ∨
       (s.txAnswer = .timeout ∧
         transmit f s = { s.afterTx with
           faultCode := 4, faultValue := 0, faultAt := s.st.code, st := .fault
           trace := s.trace ++ [.tx f .timeout] }) ∨
       (s.txAnswer = .ioerr ∧
         transmit f s = { s.afterTx with
           faultCode := 3, faultValue := 0, faultAt := s.st.code, st := .fault
           trace := s.trace ++ [.tx f .ioerr] })) := by
  unfold transmit
  cases h : s.st.afterSend with
  | none => exact .inl ⟨rfl, rfl⟩
  | some w =>
    have hne : s.st ≠ .fault := by intro hf; simp [hf, St.afterSend] at h
    refine .inr ⟨w, rfl, ?_⟩
    cases ha : s.txAnswer with
    | ok => exact .inl ⟨rfl, by simp [State.setSt, State.emit]⟩
    | timeout => exact .inr (.inl ⟨rfl, by simp [State.raise, State.emit, hne, FaultKind.code]⟩)
    | ioerr => exact .inr (.inr ⟨rfl, by simp [State.raise, State.emit, hne, FaultKind.code]⟩)

/-- Everything the WAIT step can do with an answer (42_handshake.md R112). -/
theorem receive_cases (a : RxAnswer) (s : State) :
    (s.st.afterAck = none ∧ receive a s = s) ∨
    ∃ n, s.st.afterAck = some n ∧
      ((a = .byte 0xAA ∧
         receive a s = { s with st := n, trace := s.trace ++ [.rx (.byte 0xAA), .purgeIn, .purgeOut] }) ∨
       (∃ b, a = .byte b ∧ b ≠ 0xAA ∧
         receive a s = { s with
           faultCode := 2, faultValue := b, faultAt := s.st.code, st := .fault, trace := s.trace ++ [.rx a] }) ∨
       (a = .timeout ∧
         receive a s = { s with
           faultCode := 1, faultValue := 0, faultAt := s.st.code, st := .fault, trace := s.trace ++ [.rx a] }) ∨
       (a = .ioerr ∧
         receive a s = { s with
           faultCode := 3, faultValue := 0, faultAt := s.st.code, st := .fault, trace := s.trace ++ [.rx a] })) := by
  unfold receive
  cases h : s.st.afterAck with
  | none => exact .inl ⟨rfl, rfl⟩
  | some n =>
    have hne : s.st ≠ .fault := by intro hf; simp [hf, St.afterAck] at h
    refine .inr ⟨n, rfl, ?_⟩
    cases a with
    | byte b =>
      by_cases hb : b = 0xAA
      · subst hb
        exact .inl ⟨rfl, by simp [State.setSt, State.emit, Config.ACK_OK]⟩
      · refine .inr (.inl ⟨b, rfl, hb, ?_⟩)
        have : ¬ b = Config.ACK_OK := hb
        simp [State.raise, State.emit, hne, FaultKind.code, this]
    | timeout => exact .inr (.inr (.inl ⟨rfl, by simp [State.raise, State.emit, hne, FaultKind.code]⟩))
    | ioerr => exact .inr (.inr (.inr ⟨rfl, by simp [State.raise, State.emit, hne, FaultKind.code]⟩))

/-! ### The Transfer Loop -/

/-- Everything the OPEN step can do (43_transfer.md R122). -/
theorem openStep_cases {s : State} (h : s.st = .opening) :
    (s.openAnswer = .ok ∧ openStep s = { s.afterOpen with
      frameBuf := announceFrame s.reqLength s.reqAddress ++ s.frameBuf.drop 14
      frameLen := 14
      st := .aSend
      trace := s.trace ++ [.opened .ok] }) ∨
    (s.openAnswer = .notFound ∧ openStep s = { s.afterOpen with
      faultCode := 5, faultValue := 0, faultAt := 1, st := .fault, trace := s.trace ++ [.opened .notFound] }) := by
  unfold openStep
  cases ha : s.openAnswer with
  | ok => exact .inl ⟨rfl, by simp [State.setSt, State.emit, State.storeFrame, announceFrame]⟩
  | notFound => exact .inr ⟨rfl, by simp [State.raise, State.emit, h, FaultKind.code, St.code]⟩

/-- Everything READ_CHUNK can do in `D_READ` (43_transfer.md R124). -/
theorem readChunk_cases {s : State} (h : s.st = .dRead) :
    (s.remaining = 0 ∧ readChunk s = { s with st := .fReport }) ∨
    (s.remaining ≠ 0 ∧ ∃ bytes, s.readAnswer (chunkLen s.remaining) = .data bytes ∧
      bytes.length = chunkLen s.remaining ∧ readChunk s = { s.afterRead with
        frameNumber := s.frameNumber + 1
        remaining := s.remaining - BitVec.ofNat 32 (chunkLen s.remaining)
        frameBuf := withChecksum (dataBody (lo8 (s.frameNumber + 1)) bytes) ++ s.frameBuf.drop (5 + bytes.length)
        frameLen := 5 + bytes.length
        st := .dSend
        trace := s.trace ++ [.read (chunkLen s.remaining) (.data bytes)] }) ∨
    (s.remaining ≠ 0 ∧ ∃ a, s.readAnswer (chunkLen s.remaining) = a ∧ (a = .eos ∨ a = .ioerr) ∧
      readChunk s = { s.afterRead with
        faultCode := 6, faultValue := 0, faultAt := 4, st := .fault
        trace := s.trace ++ [.read (chunkLen s.remaining) a] }) := by
  unfold readChunk
  rw [if_pos h]
  by_cases hr : s.remaining = 0
  · rw [if_pos hr]; exact .inl ⟨hr, rfl⟩
  · rw [if_neg hr]
    right
    cases ha : s.readAnswer (chunkLen s.remaining) with
    | data bytes =>
      have hl := readAnswer_length ha
      have hle : bytes.length ≤ 1024 := hl ▸ (chunkLen_bounds _).1
      refine .inl ⟨hr, bytes, rfl, hl, ?_⟩
      have h5 : 3 + bytes.length + 2 = 5 + bytes.length := by omega
      simp [ha, chunkRead, dataFrame_of_le hle, State.storeFrame, State.setSt, State.emit, h5]
    | eos => exact .inr ⟨hr, .eos, rfl, .inl rfl, by simp [ha, State.raise, State.emit, h, FaultKind.code, St.code]⟩
    | ioerr => exact .inr ⟨hr, .ioerr, rfl, .inr rfl, by simp [ha, State.raise, State.emit, h, FaultKind.code, St.code]⟩

end Sys2Proof.Machine
end

