-- ==== Sys2Proof/Laws/PerInstr.lean ====
section
/-! SUPPORT. Statements about every instruction as syntax, one lemma per constructor. The family EncodedLength: a
well-formed instruction's encoding has the length 00_scope.md R10 derives for its kind. -/

namespace Sys2Proof.Laws.EncodedLength

open Sys2Proof Sys2Proof.Machine

/-- The lengths of R10: 14 bytes, 5 + n with n at most 1024, 5 bytes, 1 byte; no bytes where there is no encoding. -/
def lengthOf : Instr → Option Nat
  | .frameAnnounce _ _ _ => some 14
  | .frameData _ _ payload _ => some (5 + payload.length)
  | .frameTerminate _ _ _ => some 5
  | .ackOk => some 1
  | .ackOther _ => some 1
  | .start _ _ _ => none
  | .reset => none
  | .checksum _ => none
  | .buildAnnounce _ _ => none
  | .buildData _ _ => none
  | .buildTerminate _ => none
  | .sendAndAwaitAck => none
  | .readChunk => none
  | .reportProgress => none

/-- The encoding has that length, and a well-formed one is at most 1029 bytes (R10). -/
def Statement (i : Instr) : Prop :=
  (encode i).map (fun e => e.2.length) = lengthOf i ∧ (i.wf = true → ∀ n, lengthOf i = some n → n ≤ 1029)

theorem frameAnnounce (len addr : Word) (ck : Half) : Statement (.frameAnnounce len addr ck) :=
  ⟨by simp [encode, lengthOf], by simp [lengthOf]⟩

theorem frameData (seq nseq : Byte) (payload : ByteStr) (ck : Half) : Statement (.frameData seq nseq payload ck) := by
  refine ⟨by simp [encode, lengthOf]; omega, ?_⟩
  intro h n hn
  simp only [Instr.wf, Bool.and_eq_true] at h
  simp only [lengthOf, Option.some.injEq] at hn
  have : payload.length ≤ 1024 := of_decide_eq_true h.1.2
  omega

theorem frameTerminate (seq nseq : Byte) (ck : Half) : Statement (.frameTerminate seq nseq ck) :=
  ⟨by simp [encode, lengthOf], by simp [lengthOf]⟩

theorem ackOk : Statement .ackOk := ⟨rfl, by simp [lengthOf]⟩

theorem ackOther (v : Byte) : Statement (.ackOther v) := ⟨rfl, by simp [lengthOf]⟩

theorem start (len addr : Word) (term : Bool) : Statement (.start len addr term) := ⟨rfl, by simp [lengthOf]⟩

theorem reset : Statement .reset := ⟨rfl, by simp [lengthOf]⟩

theorem checksum (bytes : ByteStr) : Statement (.checksum bytes) := ⟨rfl, by simp [lengthOf]⟩

theorem buildAnnounce (totalLength address : Word) : Statement (.buildAnnounce totalLength address) :=
  ⟨rfl, by simp [lengthOf]⟩

theorem buildData (sequenceNumber : Byte) (payload : ByteStr) : Statement (.buildData sequenceNumber payload) :=
  ⟨rfl, by simp [lengthOf]⟩

theorem buildTerminate (sequenceNumber : Byte) : Statement (.buildTerminate sequenceNumber) :=
  ⟨rfl, by simp [lengthOf]⟩

theorem sendAndAwaitAck : Statement .sendAndAwaitAck := ⟨rfl, by simp [lengthOf]⟩

theorem readChunk : Statement .readChunk := ⟨rfl, by simp [lengthOf]⟩

theorem reportProgress : Statement .reportProgress := ⟨rfl, by simp [lengthOf]⟩

end Sys2Proof.Laws.EncodedLength
end

