-- ==== Sys2Proof/Laws/Step.lean ====
section
/-! SUPPORT. What one step can do, said once: a host command, or the operation that `st` selects. -/

namespace Sys2Proof.Machine

/-! ### A frame that decodes is written as the bytes it was decoded from -/

theorem execFrame_of_decodeAnnounce {bs : ByteStr} {i : Instr} (h : decodeAnnounce bs = .ok i) (s : State) :
    exec i s = .next (transmit bs s) := by
  unfold decodeAnnounce at h
  split at h
  · split at h
    · rename_i hm
      cases h
      simp only [exec, execFrameAnnounce, announceBody, ← hm, be32_ofBe32, be16_ofBe16]
      rfl
    · cases h
  · cases h

theorem execFrame_of_decodeData {bs : ByteStr} {i : Instr} (h : decodeData bs = .ok i) (s : State) :
    exec i s = .next (transmit (Config.MARK_DATA :: bs) s) := by
  unfold decodeData at h
  split at h
  · rename_i seq nseq tail
    split at h
    · rename_i c1 c0 hd
      split at h
      · cases h
        have ht : tail.take (tail.length - 2) ++ [c1, c0] = tail := by rw [← hd, List.take_append_drop]
        simp only [exec, execFrameData, dataBytes, be16_ofBe16, List.cons_append, ht]
      · cases h
    · cases h
  · cases h

theorem execFrame_of_decodeTerminate {bs : ByteStr} {i : Instr} (h : decodeTerminate bs = .ok i) (s : State) :
    exec i s = .next (transmit (Config.MARK_TERM :: bs) s) := by
  unfold decodeTerminate at h
  split at h
  · cases h
    simp only [exec, execFrameTerminate, terminateBytes, be16_ofBe16]
    rfl
  · cases h

theorem execFrame_of_decode {bs : ByteStr} {i : Instr} (h : decode .transmit bs = .ok i) (s : State) :
    exec i s = .next (transmit bs s) := by
  simp only [decode] at h
  unfold decodeFrame at h
  split at h
  · cases h
  · split at h
    · exact execFrame_of_decodeAnnounce h s
    · split at h
      · subst_vars; exact execFrame_of_decodeData h s
      · split at h
        · subst_vars; exact execFrame_of_decodeTerminate h s
        · cases h

/-- A byte that decodes is received as that byte. -/
theorem exec_decodeAck (b : Byte) (s : State) : exec (decodeAck b) s = .next (receive (.byte b) s) := by
  unfold decodeAck
  split
  · subst_vars; rfl
  · rfl

/-! ### The engine's transitions -/

/-- The SEND step writes the frame in the buffer, whatever it is (42_handshake.md R111). -/
theorem sendStep_eq (s : State) : sendStep s = .next (transmit s.frame s) := by
  unfold sendStep
  split
  · exact execFrame_of_decode ‹_› s
  · rfl

/-- The WAIT step receives the transport's answer, whatever it is (42_handshake.md R112). -/
theorem waitStep_eq (s : State) : waitStep s = .next (receive s.rxAnswer s.afterRx) := by
  unfold waitStep
  split <;> rename_i h <;> rw [h]
  exact exec_decodeAck _ _

/-- What the engine's own transition leaves, state by state (43_transfer.md R132). -/
theorem engineStep_cases (s : State) :
    (s.st.isRest = true ∧ engineStep s = .next s) ∨
    (s.st = .opening ∧ engineStep s = .next (openStep s)) ∨
    (s.st.afterSend.isSome = true ∧ engineStep s = .next (transmit s.frame s)) ∨
    (s.st.afterAck.isSome = true ∧ engineStep s = .next (receive s.rxAnswer s.afterRx)) ∨
    (s.st = .dRead ∧ engineStep s = .next (readChunk s)) ∨
    (s.st = .dReport ∧ engineStep s = .next (cadenceReport s)) ∨
    (s.st = .fReport ∧ engineStep s = .next (finalReport s)) := by
  unfold engineStep
  cases h : s.st <;>
    simp [St.isRest, St.afterSend, St.afterAck, sendStep_eq, waitStep_eq, exec, execReadChunk, execReportProgress,
      reportProgress, h]

theorem engineStep_rest {s : State} (h : s.st.isRest = true) : engineStep s = .next s := by
  cases hs : s.st <;> simp [hs, St.isRest] at h <;> simp [engineStep, hs]

theorem engineStep_opening {s : State} (h : s.st = .opening) : engineStep s = .next (openStep s) := by
  simp [engineStep, h]

theorem engineStep_send {s : State} {w : St} (h : s.st.afterSend = some w) :
    engineStep s = .next (transmit s.frame s) := by
  rcases afterSend_some h with ⟨hs, -⟩ | ⟨hs, -⟩ | ⟨hs, -⟩ <;> simp [engineStep, hs, sendStep_eq]

theorem engineStep_wait {s : State} {n : St} (h : s.st.afterAck = some n) :
    engineStep s = .next (receive s.rxAnswer s.afterRx) := by
  rcases afterAck_some h with ⟨hs, -⟩ | ⟨hs, -⟩ | ⟨hs, -⟩ <;> simp [engineStep, hs, waitStep_eq]

theorem engineStep_dRead {s : State} (h : s.st = .dRead) : engineStep s = .next (readChunk s) := by
  simp [engineStep, h, exec, execReadChunk]

theorem engineStep_dReport {s : State} (h : s.st = .dReport) : engineStep s = .next (cadenceReport s) := by
  simp [engineStep, h, exec, execReportProgress, reportProgress]

theorem engineStep_fReport {s : State} (h : s.st = .fReport) : engineStep s = .next (finalReport s) := by
  simp [engineStep, h, exec, execReportProgress, reportProgress]

/-- A step with a command at this instant runs it (60_exceptions.md R155). -/
theorem step_of_command {s : State} {c : Command} (h : s.command = some c) :
    step s = exec (decodeCommand c) s.afterHost := by
  simp [step, stepOf, h]

/-- A step without one is the engine's own transition. -/
theorem step_of_no_command {s : State} (h : s.command = none) : step s = engineStep s.afterHost := by
  simp [step, stepOf, h]

/-- Everything a host command can leave of `u`, the state after its instant of the host port. -/
inductive Commanded (u : State) : Command → State → Prop where
  | start (l a : Word) (tm : BitVec 1) (h : u.st.isRest = true) :
    Commanded u (.start l a tm) (u.latch l a (decide (tm = 1#1)))
  | startBusy (l a : Word) (tm : BitVec 1) (h : u.st.isRest = false) : Commanded u (.start l a tm) u
  | reset : Commanded u .reset u.resetRegisters

/-- Everything the engine's own transition can leave of `u`: a row of the next-state table (43_transfer.md R132). -/
inductive Stepped (u : State) : State → Prop where
  | rest (h : u.st.isRest = true) : Stepped u u
  | openOk (h : u.st = .opening) (ha : u.openAnswer = .ok) :
    Stepped u { u.afterOpen with
      frameBuf := announceFrame u.reqLength u.reqAddress ++ u.frameBuf.drop 14
      frameLen := 14, st := .aSend, trace := u.trace ++ [.opened .ok] }
  | openFault (h : u.st = .opening) (ha : u.openAnswer = .notFound) :
    Stepped u { u.afterOpen with
      faultCode := 5, faultValue := 0, faultAt := 1, st := .fault, trace := u.trace ++ [.opened .notFound] }
  | sendOk (w : St) (h : u.st.afterSend = some w) (ha : u.txAnswer = .ok) :
    Stepped u { u.afterTx with st := w, trace := u.trace ++ [.tx u.frame .ok] }
  | sendFault (w : St) (h : u.st.afterSend = some w) (c : BitVec 3)
      (hc : (u.txAnswer = .timeout ∧ c = 4) ∨ (u.txAnswer = .ioerr ∧ c = 3)) :
    Stepped u { u.afterTx with
      faultCode := c, faultValue := 0, faultAt := u.st.code, st := .fault
      trace := u.trace ++ [.tx u.frame u.txAnswer] }
  | waitOk (n : St) (h : u.st.afterAck = some n) (ha : u.rxAnswer = .byte 0xAA) :
    Stepped u { u.afterRx with st := n, trace := u.trace ++ [.rx (.byte 0xAA), .purgeIn, .purgeOut] }
  | waitFault (n : St) (h : u.st.afterAck = some n) (c : BitVec 3) (v : Byte)
      (hc : (u.rxAnswer = .byte v ∧ v ≠ 0xAA ∧ c = 2) ∨ (u.rxAnswer = .timeout ∧ v = 0 ∧ c = 1) ∨
        (u.rxAnswer = .ioerr ∧ v = 0 ∧ c = 3)) :
    Stepped u { u.afterRx with
      faultCode := c, faultValue := v, faultAt := u.st.code, st := .fault, trace := u.trace ++ [.rx u.rxAnswer] }
  | chunkEnd (h : u.st = .dRead) (hr : u.remaining = 0) : Stepped u { u with st := .fReport }
  | chunkData (h : u.st = .dRead) (hr : u.remaining ≠ 0) (bytes : ByteStr)
      (ha : u.readAnswer (chunkLen u.remaining) = .data bytes) (hl : bytes.length = chunkLen u.remaining) :
    Stepped u { u.afterRead with
      frameNumber := u.frameNumber + 1
      remaining := u.remaining - BitVec.ofNat 32 (chunkLen u.remaining)
      frameBuf := withChecksum (dataBody (lo8 (u.frameNumber + 1)) bytes) ++ u.frameBuf.drop (5 + bytes.length)
      frameLen := 5 + bytes.length, st := .dSend
      trace := u.trace ++ [.read (chunkLen u.remaining) (.data bytes)] }
  | chunkFault (h : u.st = .dRead) (hr : u.remaining ≠ 0) (a : ReadAnswer)
      (ha : u.readAnswer (chunkLen u.remaining) = a) (he : a = .eos ∨ a = .ioerr) :
    Stepped u { u.afterRead with
      faultCode := 6, faultValue := 0, faultAt := 4, st := .fault
      trace := u.trace ++ [.read (chunkLen u.remaining) a] }
  | report (h : u.st = .dReport) (hk : cadence u.frameNumber.toNat u.frameCount.toNat = true) :
    Stepped u { u with
      st := .dRead, trace := u.trace ++ [.progress (pct u.frameNumber.toNat u.frameCount.toNat)] }
  | noReport (h : u.st = .dReport) (hk : cadence u.frameNumber.toNat u.frameCount.toNat = false) :
    Stepped u { u with st := .dRead }
  | finalTerm (h : u.st = .fReport) (ht : u.reqTerm = true) :
    Stepped u { u with
      frameBuf := terminateFrame (lo8 (u.frameNumber + 1)) ++ u.frameBuf.drop 5
      frameLen := 5, st := .tSend, trace := u.trace ++ [.progress 100] }
  | finalDone (h : u.st = .fReport) (ht : u.reqTerm = false) :
    Stepped u { u with st := .done, trace := u.trace ++ [.progress 100] }

/-- What the engine's own transition leaves is one of those. -/
theorem stepped_of_engineStep {u t : State} (h : engineStep u = .next t) : Stepped u t := by
  rcases engineStep_cases u with ⟨hr, e⟩ | ⟨hs, e⟩ | ⟨hs, e⟩ | ⟨hs, e⟩ | ⟨hs, e⟩ | ⟨hs, e⟩ | ⟨hs, e⟩ <;>
    rw [e] at h <;> cases h
  · exact .rest hr
  · rcases openStep_cases hs with ⟨ha, e⟩ | ⟨ha, e⟩ <;> rw [e]
    · exact .openOk hs ha
    · exact .openFault hs ha
  · rcases transmit_cases u.frame u with ⟨hn, -⟩ | ⟨w, hw, ⟨ha, e⟩ | ⟨ha, e⟩ | ⟨ha, e⟩⟩
    · simp [hn] at hs
    · rw [e]; exact .sendOk w hw ha
    · rw [e, ← ha]; exact .sendFault w hw 4 (.inl ⟨ha, rfl⟩)
    · rw [e, ← ha]; exact .sendFault w hw 3 (.inr ⟨ha, rfl⟩)
  · obtain ⟨n, hn⟩ := Option.isSome_iff_exists.mp hs
    rcases receive_cases u.rxAnswer u.afterRx with ⟨h0, -⟩ | ⟨w, hw, ⟨ha, e⟩ | ⟨b, ha, hb, e⟩ | ⟨ha, e⟩ | ⟨ha, e⟩⟩
    · simp [hn] at h0
    · rw [e]; simpa using Stepped.waitOk w (by simpa using hw) ha
    · rw [e]; simpa using Stepped.waitFault n hn 2 b (.inl ⟨ha, hb, rfl⟩)
    · rw [e]; simpa using Stepped.waitFault n hn 1 0 (.inr (.inl ⟨ha, rfl, rfl⟩))
    · rw [e]; simpa using Stepped.waitFault n hn 3 0 (.inr (.inr ⟨ha, rfl, rfl⟩))
  · rcases readChunk_cases hs with ⟨hr, e⟩ | ⟨hr, b, ha, hl, e⟩ | ⟨hr, a, ha, he, e⟩ <;> rw [e]
    · exact .chunkEnd hs hr
    · exact .chunkData hs hr b ha hl
    · exact .chunkFault hs hr a ha he
  · unfold cadenceReport
    split
    · exact .report hs ‹_›
    · exact .noReport hs (Bool.eq_false_of_not_eq_true ‹_›)
  · unfold finalReport
    split
    · exact .finalTerm hs ‹_›
    · exact .finalDone hs (Bool.eq_false_of_not_eq_true ‹_›)

/-- What a host command leaves is one of its effects. -/
theorem commanded_of_exec {c : Command} {u t : State} (h : exec (decodeCommand c) u = .next t) : Commanded u c t := by
  cases c with
  | reset => cases h; exact .reset
  | start l a tm =>
    simp only [decodeCommand, exec, execStart, Host.Outcome.next.injEq] at h
    split at h <;> subst h
    · exact .start l a tm ‹_›
    · exact .startBusy l a tm (Bool.eq_false_of_not_eq_true ‹_›)

/-- Everything one step can do. -/
theorem step_cases {s t : State} (h : step s = .next t) :
    (∃ c, s.command = some c ∧ Commanded s.afterHost c t) ∨ (s.command = none ∧ Stepped s.afterHost t) := by
  cases hc : s.command with
  | none => exact .inr ⟨rfl, stepped_of_engineStep (step_of_no_command hc ▸ h)⟩
  | some c => exact .inl ⟨c, rfl, commanded_of_exec (step_of_command hc ▸ h)⟩

end Sys2Proof.Machine
end

