-- ==== Sys2Proof/Laws/Trace.lean ====
section
/-! SUPPORT. Safety.lean's terms against the operations': the state lists, and how the readings of the trace change when a
step appends to it. -/

namespace Sys2Proof.Machine

theorem mem_restStates_iff (x : St) : x ∈ restStates ↔ x.isRest = true := by cases x <;> decide

theorem mem_sendPairs_iff (x w : St) : (x, w) ∈ sendPairs ↔ x.afterSend = some w := by
  cases x <;> simp [sendPairs, St.afterSend, eq_comm]

theorem mem_ackPairs_iff (x n : St) : (x, n) ∈ ackPairs ↔ x.afterAck = some n := by
  cases x <;> simp [ackPairs, St.afterAck, eq_comm]

@[simp] theorem currentTransfer_nil : currentTransfer [] = [] := rfl

/-- An event that begins a transfer leaves nothing before it. -/
@[simp] theorem currentTransfer_begins (tr : List Event) {e : Event} (h : e.begins = true) :
    currentTransfer (tr ++ [e]) = [] := by
  simp [currentTransfer, h]

theorem currentTransfer_snoc (tr : List Event) (e : Event) :
    currentTransfer (tr ++ [e]) = if e.begins then [] else currentTransfer tr ++ [e] := by
  simp [currentTransfer]

/-- Events that begin no transfer join the current one. -/
theorem currentTransfer_append (tr es : List Event) (h : ∀ e ∈ es, e.begins = false) :
    currentTransfer (tr ++ es) = currentTransfer tr ++ es := by
  induction es generalizing tr with
  | nil => simp
  | cons e es ih =>
    have h1 : currentTransfer (tr ++ [e]) = currentTransfer tr ++ [e] := by
      simp [currentTransfer, h e (List.mem_cons_self)]
    have := ih (tr ++ [e]) (fun e' h' => h e' (List.mem_cons_of_mem _ h'))
    simpa [h1] using this

theorem Wire.run_append (w : Wire) (tr es : List Event) :
    Wire.run w (tr ++ es) = (Wire.run w tr).bind (fun w' => Wire.run w' es) := by
  simp only [Wire.run, List.foldlM_append]; rfl

end Sys2Proof.Machine
end

