-- ==== Sys2Proof/Tests/Slice0.lean ====
section
/-! SUPPORT. The model's own tests: ill-formed terms that WellFormed refuses, words written out from the spec's tables,
one-step tests whose expected values are the vectors of 95_test_vectors.md, and for every obligation with hypotheses a
witness that meets them together. -/

namespace Sys2Proof.Tests

open Sys2Proof.Machine

/-! ### WellFormed: one ill-formed term per check -/

/-- R76: an announce frame whose checksum is one too high. -/
theorem test_wf_refuses_announce_checksum :
    (Instr.frameAnnounce 2500 0x00100000 (checksumOf (announceBody 2500 0x00100000) + 1)).wf = false := by
  simp [Instr.wf]

/-- R73, R77: `NSEQ` is not the complement of `SEQ`. -/
theorem test_wf_refuses_data_complement (ck : Half) : (Instr.frameData 1 0xFF [1, 2, 3] ck).wf = false := by
  simp [Instr.wf, cpl8]

/-- R72: 1025 payload bytes. -/
theorem test_wf_refuses_data_payload (ck : Half) : (Instr.frameData 1 0xFE (List.replicate 1025 0) ck).wf = false := by
  simp [Instr.wf, Config.CHUNK_SIZE, -List.reduceReplicate]

/-- R76: a data frame whose checksum is one too high. -/
theorem test_wf_refuses_data_checksum :
    (Instr.frameData 1 0xFE [1, 2, 3] (checksumOf (dataBytes 1 0xFE [1, 2, 3]) + 1)).wf = false := by
  simp [Instr.wf]

/-- R75, R77: `NSEQ` is not the complement of `SEQ`. -/
theorem test_wf_refuses_terminate_complement (ck : Half) : (Instr.frameTerminate 4 4 ck).wf = false := by
  simp [Instr.wf, cpl8]

/-- R76: a terminate frame whose checksum is one too high. -/
theorem test_wf_refuses_terminate_checksum :
    (Instr.frameTerminate 4 0xFB (checksumOf (terminateBytes 4 0xFB) + 1)).wf = false := by
  simp [Instr.wf]

/-- R80: `0xAA` is ACK_OK, not ACK_OTHER. -/
theorem test_wf_refuses_ackOther_AA : (Instr.ackOther 0xAA).wf = false := by decide

/-! ### Decoding words written out from the tables of 30_encoding.md -/

/-- R70, vector V6 (the checksum bytes `09 9F` stand for any). -/
theorem test_decode_announce :
    decode .transmit [0xFE, 0x00, 0xFF, 0x01, 0x00, 0x00, 0x09, 0xC4, 0x00, 0x10, 0x00, 0x00, 0x09, 0x9F] =
      .ok (.frameAnnounce 2500 0x00100000 0x099F) := rfl

/-- R72, vector V12. -/
theorem test_decode_data :
    decode .transmit [0xDA, 0x01, 0xFE, 0x01, 0x02, 0x03, 0xD4, 0xC1] =
      .ok (.frameData 1 0xFE [0x01, 0x02, 0x03] 0xD4C1) := rfl

/-- R72, vector V13: no payload byte. -/
theorem test_decode_data_empty :
    decode .transmit [0xDA, 0x00, 0xFF, 0xBC, 0xA5] = .ok (.frameData 0 0xFF [] 0xBCA5) := rfl

/-- R74, vector V21. -/
theorem test_decode_terminate :
    decode .transmit [0xED, 0x04, 0xFB, 0x70, 0xD0] = .ok (.frameTerminate 4 0xFB 0x70D0) := rfl

/-- R80: the one success value, written out bit by bit from the table (`10101010`). -/
theorem test_decode_ackOk : decode .receive [0b10101010#8] = .ok .ackOk := rfl

/-- R80: the byte of W6. -/
theorem test_decode_ackOther : decode .receive [0b01010101#8] = .ok (.ackOther 0x55) := rfl

/-- R82: the two strobes. -/
theorem test_decode_commands :
    decodeCommand (.start 0x9C4 0x00100000 1) = .start 2500 0x00100000 true ∧ decodeCommand .reset = .reset :=
  ⟨rfl, rfl⟩

/-- R81: what no table has is refused, each by its name. -/
theorem test_decode_refuses :
    decode .transmit [] = .error .empty ∧ decode .transmit [0xAA, 0, 0, 0, 0] = .error .unknownMarker ∧
    decode .transmit [0xFE, 0x00, 0xFE, 0x01, 0, 0, 0, 0, 0, 0, 0, 0, 0, 0] = .error .badAnnounceMarker ∧
    decode .transmit [0xFE, 0x00, 0xFF, 0x01, 0, 0, 0, 0, 0, 0, 0, 0, 0] = .error .badLength ∧
    decode .transmit [0xDA, 0x01, 0xFE, 0x00] = .error .badLength ∧
    decode .transmit [0xED, 0x04, 0xFB, 0x00, 0x70, 0xD0] = .error .badLength ∧
    decode .receive [0xAA, 0xAA] = .error .notOneByte ∧ decode .receive [] = .error .empty :=
  ⟨rfl, rfl, rfl, rfl, rfl, rfl, rfl, rfl⟩

/-- R72, R81: 1025 payload bytes. -/
theorem test_decode_refuses_long_payload :
    decode .transmit (0xDA :: 0x01 :: 0xFE :: List.replicate 1027 0) = .error .payloadTooLong := by
  have h : List.replicate 2 0#8 = [0#8, 0#8] := rfl
  simp [decode, decodeFrame, decodeData, Config.MARK_ANNOUNCE, Config.MARK_DATA, Config.CHUNK_SIZE, h,
    -List.reduceReplicate]

/-- opcode_table.json's match words, as the table numbers them (log 15). -/
theorem test_table_words :
    decodeTableWord 32 0xFE00FF01 = some (.frameAnnounce 0 0 0) ∧ decodeTableWord 8 0xDA = some (.frameData 0 0 [] 0) ∧
    decodeTableWord 8 0xED = some (.frameTerminate 0 0 0) ∧ decodeTableWord 8 0xAA = some .ackOk ∧
    decodeTableWord 8 0x00 = some (.ackOther 0) := by decide

/-! ### One step each, against 95_test_vectors.md -/

/-- A small state in `x`: everything else as after reset, the frame buffer short. -/
def inState (x : St) : State := { State.reset with st := x, frameBuf := [] }

/-- The same with a frame in the buffer. -/
def withFrame (x : St) (f : ByteStr) : State := { inState x with frameBuf := f, frameLen := f.length }

/-- The next state, if there is one. -/
def nextOf (o : Host.Outcome State Fault Refusal) : Option State :=
  match o with
  | .next t => some t
  | .fault _ => none
  | .refused _ => none

/-- The registers a fault is read from. -/
def faultView (t : State) : St × BitVec 3 × Byte × BitVec 4 := (t.st, t.faultCode, t.faultValue, t.faultAt)

/-- V6 with R111: the 14 bytes on the wire, index 0 first. -/
theorem test_frameAnnounce_writes :
    (nextOf (exec (.frameAnnounce 2500 0x00100000 0x099F)
      { inState .aSend with txIn := [.ok] })).map (fun t => (t.st, t.trace)) =
    some (.aWait, [.tx [0xFE, 0x00, 0xFF, 0x01, 0x00, 0x00, 0x09, 0xC4, 0x00, 0x10, 0x00, 0x00, 0x09, 0x9F] .ok]) := by
  decide

/-- V33: a write that times out. -/
theorem test_frameData_write_timeout :
    (nextOf (exec (.frameData 1 0xFE [1, 2, 3] 0xD4C1) { inState .dSend with txIn := [.timeout] })).map faultView =
    some (.fault, 4, 0, 5) := by decide

/-- V12 with V26: the 8 bytes on the wire. -/
theorem test_frameData_writes :
    (nextOf (exec (.frameData 1 0xFE [1, 2, 3] 0xD4C1) { inState .dSend with txIn := [.ok] })).map
      (fun t => (t.st, t.trace)) =
    some (.dWait, [.tx [0xDA, 0x01, 0xFE, 0x01, 0x02, 0x03, 0xD4, 0xC1] .ok]) := by decide

/-- V34 in `T_SEND`: a write that fails, `faultAt` 9. -/
theorem test_frameTerminate_write_error :
    (nextOf (exec (.frameTerminate 4 0xFB 0x70D0) { inState .tSend with txIn := [.ioerr] })).map faultView =
    some (.fault, 3, 0, 9) := by decide

/-- V26: the reply, the purge pair, then `D_REPORT`. -/
theorem test_ackOk_data :
    (nextOf (exec .ackOk (inState .dWait))).map (fun t => (t.st, t.trace)) =
    some (.dReport, [.rx (.byte 0xAA), .purgeIn, .purgeOut]) := by decide

/-- V26 for the terminate frame: success to `DONE`. -/
theorem test_ackOk_terminate : (nextOf (exec .ackOk (inState .tWait))).map (·.st) = some .done := by decide

/-- V27: no purge, the byte recorded. -/
theorem test_ackOther_55 :
    (nextOf (exec (.ackOther 0x55) (inState .dWait))).map (fun t => (faultView t, t.trace)) =
    some ((.fault, 2, 0x55, 6), [.rx (.byte 0x55)]) := by decide

/-- V30: one above the success value. -/
theorem test_ackOther_AB :
    (nextOf (exec (.ackOther 0xAB) (inState .dWait))).map faultView = some (.fault, 2, 0xAB, 6) := by decide

/-- V55. -/
theorem test_start_from_idle :
    (nextOf (exec (.start 2500 0x00100000 true) (inState .idle))).map
      (fun t => (t.st, t.frameCount, t.frameNumber, t.remaining, t.status)) =
    some (.opening, 3, 0, 2500, 0x00000091) := by decide

/-- V57: from FAULT, with the fault cleared. -/
theorem test_start_from_fault :
    (nextOf (exec (.start 0 0 false) { inState .fault with faultCode := 2 })).map
      (fun t => (t.st, t.faultCode, t.frameCount, t.status)) = some (.opening, 0, 0, 0x00000011) := by decide

/-- V58. -/
theorem test_reset_in_send :
    (nextOf (exec .reset { inState .dSend with reqLength := 7, frameNumber := 1, frameLen := 8 })).map
      (fun t => ((t.st, t.reqLength, t.frameNumber), t.frameLen, t.status, t.trace)) =
    some ((.idle, 0, 0), 0, 0, [.reset]) := by decide

/-- V4: the value is the parameter's, no other. -/
theorem test_checksum_is_the_parameter :
    (nextOf (exec (.checksum [0xFE, 0x00, 0xFF, 0x01, 0x00, 0x00, 0x09, 0xC4, 0x00, 0x10, 0x00, 0x00])
      (inState .idle))).map (·.checksumResult) =
    some (some (Config.CHECKSUM16
      [0xFE, 0x00, 0xFF, 0x01, 0x00, 0x00, 0x09, 0xC4, 0x00, 0x10, 0x00, 0x00])) := rfl

/-- V10: the length before the address, both big-endian. -/
theorem test_buildAnnounce_body :
    (nextOf (exec (.buildAnnounce 0x00001000 0x80000000) (inState .idle))).map
      (fun t => (t.frameLen, t.frame.take 12)) =
    some (14, [0xFE, 0x00, 0xFF, 0x01, 0x00, 0x00, 0x10, 0x00, 0x80, 0x00, 0x00, 0x00]) := by decide

/-- V15: the complement of `0x80`. -/
theorem test_buildData_body :
    (nextOf (exec (.buildData 0x80 [0x00]) (inState .idle))).map (fun t => (t.frameLen, t.frame.take 4)) =
    some (6, [0xDA, 0x80, 0x7F, 0x00]) := by decide

/-- V18: 1025 payload bytes are a fault, no frame. -/
theorem test_buildData_oversize :
    (nextOf (exec (.buildData 1 (List.replicate 1025 0)) (inState .dRead))).map
      (fun t => (faultView t, t.frameLen)) = some ((.fault, 7, 0, 4), 0) := by
  have h := dataFrame_of_gt (q := 1) (p := List.replicate 1025 0) (by rw [List.length_replicate]; decide)
  simp only [exec, execBuildData, buildDataInto, h]
  decide

/-- V23. -/
theorem test_buildTerminate_body :
    (nextOf (exec (.buildTerminate 255) (inState .idle))).map (fun t => (t.frameLen, t.frame.take 3)) =
    some (5, [0xED, 0xFF, 0x00]) := by decide

/-- V26 as one operation. -/
theorem test_sendAndAwaitAck_success :
    (nextOf (exec .sendAndAwaitAck
      { withFrame .dSend [0xDA, 0x02, 0xFD, 0xAA, 0xDF, 0xF5] with txIn := [.ok], rxIn := [.byte 0xAA] })).map
      (fun t => (t.st, t.trace)) =
    some (.dReport, [.tx [0xDA, 0x02, 0xFD, 0xAA, 0xDF, 0xF5] .ok, .rx (.byte 0xAA), .purgeIn, .purgeOut]) := by decide

/-- V31: the timeout of the reply, not of the write. -/
theorem test_sendAndAwaitAck_timeout :
    (nextOf (exec .sendAndAwaitAck
      { withFrame .dSend [0xDA, 0x00, 0xFF, 0xBC, 0xA5] with txIn := [.ok], rxIn := [.timeout] })).map faultView =
    some (.fault, 1, 0, 6) := by decide

/-- V39: the sequence byte wraps, the register does not. -/
theorem test_readChunk_wrap :
    (nextOf (exec .readChunk
      { inState .dRead with remaining := 1, frameNumber := 255, readIn := [.data [0x77]] })).map
      (fun t => (t.st, t.frameNumber, t.remaining, t.frameLen, t.frame.take 4)) =
    some (.dSend, 256, 0, 6, [0xDA, 0x00, 0xFF, 0x77]) := by decide

/-- V38: the source ends early; the counters stay. -/
theorem test_readChunk_eos :
    (nextOf (exec .readChunk
      { inState .dRead with remaining := 1024, frameNumber := 1, readIn := [.eos] })).map
      (fun t => (faultView t, t.frameNumber, t.remaining)) = some ((.fault, 6, 0, 4), 1, 1024) := by decide

/-- V48: the first frame count of the slower cadence. -/
theorem test_reportProgress_cadence :
    (nextOf (exec .reportProgress { inState .dReport with frameNumber := 10, frameCount := 251 })).map
      (fun t => (t.st, t.trace)) = some (.dRead, [.progress 3]) := by decide

/-- R129's example: the final report and the terminate frame one past the last data frame. -/
theorem test_reportProgress_final :
    (nextOf (exec .reportProgress { inState .fReport with frameNumber := 3, frameCount := 3, reqTerm := true })).map
      (fun t => (t.st, t.trace, t.frameLen, t.frame.take 3)) =
    some (.tSend, [.progress 100], 5, [0xED, 0x04, 0xFB]) := by decide

/-- P8, first program: a missing source. -/
theorem test_open_not_found :
    (nextOf (step { inState .opening with openIn := [.notFound] })).map (fun t => (faultView t, t.trace)) =
    some ((.fault, 5, 0, 1), [.opened .notFound]) := by decide

/-- 60_exceptions.md R155: a RESET at the same instant is taken first. -/
theorem test_reset_before_the_step :
    (nextOf (step { inState .dRead with hostIn := [some .reset], remaining := 0 })).map (fun t => (t.st, t.trace)) =
    some (.idle, [.reset]) := by decide

/-- A table word placed after reset is what the next step runs (log 16). -/
theorem test_withFetchWord_runs :
    (nextOf (step (State.reset.withFetchWord 8 0x55))).map faultView = some (.fault, 2, 0x55, 3) := by decide

/-! ### Witnesses: for each obligation with hypotheses, states and operands that meet them together -/

theorem witness_DecodeOfEncodeIsTheInstruction :
    (Instr.frameData 1 0xFE [1, 2, 3] (checksumOf (dataBytes 1 0xFE [1, 2, 3]))).wf = true ∧
    encode (.frameData 1 0xFE [1, 2, 3] (checksumOf (dataBytes 1 0xFE [1, 2, 3]))) =
      some (.transmit, withChecksum (dataBytes 1 0xFE [1, 2, 3])) ∧
    (Instr.ackOther 0xAB).wf = true ∧ encode (.ackOther 0xAB) = some (.receive, [0xAB]) :=
  ⟨by simp [Instr.wf, cpl8, Config.CHUNK_SIZE], rfl, by decide, rfl⟩

theorem witness_EncodeOfDecodeIsTheBytes :
    decode .receive [0x00] = .ok (.ackOther 0) ∧
    decode .transmit [0xDA, 0x00, 0x00, 0xFF, 0xFF] = .ok (.frameData 0 0 [] 0xFFFF) := ⟨rfl, rfl⟩

/-- Each kind, the data frame at both ends of its length. -/
theorem witness_FirstByteSelectsFrameKind :
    decode .transmit (0xFE :: [0x00, 0xFF, 0x01, 0, 0, 0, 0, 0, 0, 0, 0, 0, 0]) = .ok (.frameAnnounce 0 0 0) ∧
    decode .transmit (0xDA :: [0x00, 0xFF, 0, 0]) = .ok (.frameData 0 0xFF [] 0) ∧
    decode .transmit (0xDA :: 0x00 :: 0xFF :: List.replicate 1026 0) =
      .ok (.frameData 0 0xFF (List.replicate 1024 0) 0) ∧
    decode .transmit (0xED :: [0x00, 0xFF, 0, 0]) = .ok (.frameTerminate 0 0xFF 0) := by
  have h : List.replicate 2 0#8 = [0#8, 0#8] := rfl
  refine ⟨rfl, rfl, ?_, rfl⟩
  simp [decode, decodeFrame, decodeData, Config.MARK_ANNOUNCE, Config.MARK_DATA, Config.CHUNK_SIZE, h, ofBe16,
    -List.reduceReplicate]

theorem witness_CommandStrobesDecode :
    encodeCommand (.start 0xFFFFFFFF 1 true) = some (.start 0xFFFFFFFF 1 1) ∧ encodeCommand .reset = some .reset :=
  ⟨rfl, rfl⟩

/-- The empty payload and the longest one; also for BuilderResultsReadBack. -/
theorem witness_BuiltFramesAreWellFormed :
    (∃ f, dataFrame 0 [] = .ok f) ∧ ∃ f, dataFrame 255 (List.replicate 1024 0xAA) = .ok f :=
  ⟨⟨_, rfl⟩, ⟨_, dataFrame_of_le (by rw [List.length_replicate])⟩⟩

/-- 1024 and 1025 bytes, outside FAULT and in it. -/
theorem witness_BuildDataStoresItsFrameOrFaults :
    (List.replicate 1024 (0 : Byte)).length ≤ 1024 ∧ 1024 < (List.replicate 1025 (0 : Byte)).length ∧
    (inState .idle).st ≠ .fault ∧ (inState .fault).st = .fault := by
  simp only [List.length_replicate]
  exact ⟨by decide, by decide, by decide, rfl⟩

theorem witness_BuildersKeepTheBytesAboveTheFrame :
    (∃ t, exec (.buildAnnounce 0 0) State.reset = .next t ∧ t.frameLen ≤ 14) ∧
    (∃ t, exec (.buildData 0 []) State.reset = .next t ∧ t.frameLen ≤ 1028) ∧
    (List.replicate 1024 (0 : Byte)).length ≤ 1024 ∧
    ∃ t, exec (.buildTerminate 0) State.reset = .next t ∧ t.frameLen ≤ 5 :=
  ⟨⟨_, rfl, by decide⟩, ⟨_, rfl, by decide⟩, by rw [List.length_replicate], ⟨_, rfl, by decide⟩⟩

theorem witness_BuildersAreInjective :
    announceFrame 7 9 = announceFrame 7 9 ∧ (∃ f, dataFrame 0 [0xED] = .ok f) ∧
    terminateFrame 255 = terminateFrame 255 := ⟨rfl, ⟨_, rfl⟩, rfl⟩

/-- Also for StartWhileBusyHasNoEffect and FrameCountIsTheCeiling. -/
theorem witness_StartLatchesTheRequest :
    (inState .idle).st ∈ restStates ∧ (inState .done).st ∈ restStates ∧ (inState .fault).st ∈ restStates ∧
    (inState .opening).st ∉ restStates ∧ (inState .tWait).st ∉ restStates := by decide

/-- The lengths at which the frame count changes. -/
theorem witness_FrameCountIsTheCeiling :
    ([0, 1, 1024, 1025, 2048, 2049, 0xFFFFFFFF].map fun len : Word =>
      (nextOf (exec (.start len 0 false) (inState .done))).map (·.frameCount.toNat)) =
    [some 0, some 1, some 1, some 2, some 2, some 3, some 4194304] := by decide

theorem witness_ResetStateHoldsTheResetValues :
    ∃ t, exec .reset (inState .tWait) = .next t ∧ t.st = .idle := ⟨_, rfl, rfl⟩

theorem witness_StateCodesAreTheTables : St.fault.code = St.fault.code ∧ St.fault.code.toNat = 12 := by decide

theorem witness_FaultCodesAndResult :
    (inState .done).st = .done ∧ (inState .fault).st = .fault ∧ (inState .idle).st ≠ .done ∧
    (inState .idle).st ≠ .fault ∧ ({ inState .fault with faultAt := 4 } : State).faultAt = 4 ∧
    ({ inState .fault with faultAt := 6 } : State).faultAt = 6 := by decide

/-- Each of the three answers, in each `X_SEND`; also for SendStepFollowsItsRule. -/
theorem witness_FramesAreWrittenWhole :
    encode (.frameTerminate 4 0xFB 0) = some (.transmit, [0xED, 0x04, 0xFB, 0, 0]) ∧
    ∀ a ∈ [WriteAnswer.ok, .timeout, .ioerr], ∀ p ∈ sendPairs,
      { inState p.1 with txIn := [a] }.st = p.1 ∧ { inState p.1 with txIn := [a] }.txAnswer = a ∧
      { inState p.1 with txIn := [a] }.command = none := by
  exact ⟨rfl, by decide⟩

/-- Each answer, the bytes on either side of `0xAA` among them; also for AckOkPurgesAndGoesOn,
AckOtherIsAFaultWithItsValue, HandshakeFromTheWaitStates. -/
theorem witness_WaitStepFollowsItsRule :
    ∀ a ∈ [RxAnswer.byte 0xAA, .byte 0xA9, .byte 0xAB, .byte 0, .timeout, .ioerr], ∀ p ∈ ackPairs,
      { inState p.1 with rxIn := [a] }.st = p.1 ∧ { inState p.1 with rxIn := [a] }.rxAnswer = a ∧
      { inState p.1 with rxIn := [a] }.command = none := by decide

/-- Each write answer before each read answer. -/
theorem witness_HandshakeFollowsItsRule :
    (.dSend, .dWait) ∈ sendPairs ∧ (.dWait, .dReport) ∈ ackPairs ∧
    ∀ a ∈ [WriteAnswer.ok, .timeout, .ioerr], ∀ b ∈ [RxAnswer.byte 0xAA, .byte 0xAB, .timeout, .ioerr],
      let s := { inState .dSend with txIn := [a], rxIn := [b] }
      s.st = .dSend ∧ s.txAnswer = a ∧ s.afterTx.rxAnswer = b := by decide

theorem witness_HandshakeIsTheSendAndTheWaitStep :
    (.tSend, .tWait) ∈ sendPairs ∧ (inState .tSend).st = .tSend ∧ (inState .tSend).hostIn = [] := by decide

theorem witness_OpenStepFollowsItsRule :
    ∀ a ∈ [OpenAnswer.ok, .notFound],
      let s := { inState .opening with openIn := [a] }
      s.st = .opening ∧ s.command = none ∧ s.openAnswer = a := by decide

/-- Nothing remaining; one byte, answered; 1025 bytes, each failure. -/
theorem witness_ReadChunkFollowsItsRule :
    (inState .dRead).st = .dRead ∧ (inState .dRead).remaining = 0 ∧
    (let s := { inState .dRead with remaining := 1, readIn := [.data [7]] }
     s.remaining ≠ 0 ∧ s.readAnswer (min 1024 s.remaining.toNat) = .data [7]) ∧
    (let s := { inState .dRead with remaining := 1025, readIn := [.eos] }
     s.remaining ≠ 0 ∧ s.readAnswer (min 1024 s.remaining.toNat) = .eos) ∧
    (let s := { inState .dRead with remaining := 1025, readIn := [.ioerr] }
     s.remaining ≠ 0 ∧ s.readAnswer (min 1024 s.remaining.toNat) = .ioerr) := by decide

theorem witness_SourceAnswersHaveTheLengthAskedFor :
    { inState .dRead with readIn := [.data [7, 8]] }.readAnswer 2 = .data [7, 8] ∧
    { inState .dRead with readIn := [.eos] }.readIn = .eos :: [] ∧
    { inState .dRead with readIn := [.ioerr] }.readIn = .ioerr :: [] := by decide

/-- Either side of the threshold, and the guard. -/
theorem witness_CadenceReportFollowsItsRule :
    ({ inState .dReport with frameNumber := 249, frameCount := 250 } : State).frameNumber.toNat %
      (if (250 : Nat) > 250 then 10 else 3) = 0 ∧
    ({ inState .dReport with frameNumber := 249, frameCount := 251 } : State).frameNumber.toNat %
      (if (251 : Nat) > 250 then 10 else 3) ≠ 0 ∧
    (inState .dReport).st = .dReport ∧ (inState .dReport).frameNumber.toNat % 3 = 0 ∧
    (inState .dReport).frameCount.toNat = 0 := by decide

theorem witness_FinalReportFollowsItsRule :
    (inState .fReport).st = .fReport ∧ (inState .fReport).reqTerm = false ∧
    { inState .fReport with reqTerm := true }.reqTerm = true := by decide

/-- A state the invariants hold in and that is not the reset state: the loop is entered, one byte is to be read. -/
def atLoop : State :=
  { State.reset with st := .dRead, reqLength := 1, frameCount := 1, remaining := 1, readIn := [.data [7]] }

/-- Its invariants; also for StepKeepsTheRegisterInvariants and NoRegisterOverflows. -/
theorem atLoop_inv : Inv atLoop where
  bufLength := List.length_replicate
  frameLenBound := by decide
  remainingBound := by decide
  countOfLength := by decide
  numberOfRead := by decide
  wholeChunks := by decide
  numbered := by decide
  faultCodeIff := by decide

theorem atLoop_chunkInv : ChunkInv atLoop := ⟨by decide, by decide, by decide, by decide⟩

theorem atLoop_frameInv : FrameInv atLoop := ⟨by decide, by simp [atLoop], by decide⟩

theorem atLoop_reportInv : ReportInv atLoop := ⟨by decide, by decide, by decide, by decide⟩

theorem witness_SequenceByteWrapsAndTheCounterDoesNot :
    Inv atLoop ∧ atLoop.st = .dRead ∧ atLoop.remaining ≠ 0 ∧ ∃ t, exec .readChunk atLoop = .next t ∧ t.st = .dSend :=
  ⟨atLoop_inv, rfl, by decide, ⟨_, rfl, by decide⟩⟩

theorem witness_StepKeepsTheChunkAccounting :
    Inv atLoop ∧ ChunkInv atLoop ∧ ReportInv atLoop ∧ ∃ t, step atLoop = .next t ∧ t.st = .dSend :=
  ⟨atLoop_inv, atLoop_chunkInv, atLoop_reportInv, ⟨_, rfl, by decide⟩⟩

theorem witness_PercentageIsBoundedAndMonotone : 0 ≤ 250 ∧ 250 ≤ 250 ∧ 0 < 250 := by decide

/-- A command; each operation's state with what presents it. -/
theorem witness_StepRunsThePresentedInstruction :
    { inState .dWait with hostIn := [some .reset] }.command = some .reset ∧
    (withFrame .tSend [0xED, 0x04, 0xFB, 0, 0]).command = none ∧
    decode .transmit (withFrame .tSend [0xED, 0x04, 0xFB, 0, 0]).frame = .ok (.frameTerminate 4 0xFB 0) ∧
    { inState .dWait with rxIn := [.byte 0xAB] }.rxAnswer = .byte 0xAB ∧
    decode .receive [0xAB] = .ok (.ackOther 0xAB) ∧
    (inState .dRead).command = none ∧ (inState .dRead).st = .dRead ∧ (inState .fReport).st = .fReport :=
  ⟨rfl, rfl, rfl, rfl, rfl, rfl, rfl, rfl⟩

theorem witness_StepFollowsTheNextStateTable :
    (∃ t, step atLoop = .next t) ∧ atLoop.command = none ∧
    (∃ t, step { atLoop with hostIn := [some .reset] } = .next t) ∧
    { atLoop with hostIn := [some .reset] }.command = some .reset ∧
    (∃ t, step { inState .done with hostIn := [some (.start 0 0 1)] } = .next t) ∧
    { inState .done with hostIn := [some (.start 0 0 1)] }.command = some (.start 0 0 1) ∧
    (inState .done).st ∈ restStates ∧ atLoop.st ∉ restStates :=
  ⟨⟨_, rfl⟩, rfl, ⟨_, rfl⟩, rfl, ⟨_, rfl⟩, rfl, by decide, by decide⟩

theorem witness_RestStatesStayUntilACommand :
    (inState .idle).st ∈ restStates ∧ (inState .idle).command = none := by decide

theorem witness_OperationsOutsideTheirStatesDoNothing :
    (inState .idle).st ∉ [St.aSend, .dSend, .tSend, .aWait, .dWait, .tWait] ∧ (inState .idle).st ≠ .dRead ∧
    (inState .idle).st ∉ [St.dReport, .fReport] ∧
    encode (.frameAnnounce 0 0 0) =
      some (.transmit, [0xFE, 0x00, 0xFF, 0x01, 0, 0, 0, 0, 0, 0, 0, 0, 0, 0]) := by decide

/-- Each row of R153. -/
theorem witness_FaultEntryIsPrecise :
    (nextOf (step { inState .opening with openIn := [.notFound] })).map (·.st) = some .fault ∧
    (nextOf (step { inState .aSend with txIn := [.timeout] })).map (·.st) = some .fault ∧
    (nextOf (step { inState .tSend with txIn := [.ioerr] })).map (·.st) = some .fault ∧
    (nextOf (step { inState .aWait with rxIn := [.timeout] })).map (·.st) = some .fault ∧
    (nextOf (step { inState .dWait with rxIn := [.ioerr] })).map (·.st) = some .fault ∧
    (nextOf (step { inState .tWait with rxIn := [.byte 0xAB] })).map (·.st) = some .fault ∧
    (nextOf (step { inState .dRead with remaining := 1, readIn := [.eos] })).map (·.st) = some .fault ∧
    (nextOf (step { inState .dRead with remaining := 1, readIn := [.ioerr] })).map (·.st) = some .fault := by decide

theorem witness_FaultIsHeldUntilStartOrReset :
    (inState .fault).st = .fault ∧ ∃ t, exec (.buildTerminate 1) (inState .fault) = .next t := ⟨rfl, ⟨_, rfl⟩⟩

theorem witness_EveryRegisterHasItsWriters :
    (∃ t, exec .readChunk atLoop = .next t ∧ t.st ≠ .fault) ∧ Instr.readChunk ≠ .reset ∧
    (∃ t, exec (.checksum []) atLoop = .next t) ∧ Instr.checksum [] ≠ .readChunk ∧
    Instr.checksum [] ≠ .reportProgress :=
  ⟨⟨_, rfl, by decide⟩, by decide, ⟨_, rfl⟩, by decide, by decide⟩

theorem witness_RequestIsImmutableDuringATransfer :
    atLoop.command = none ∧ (∃ t, step atLoop = .next t) ∧
    { atLoop with hostIn := [some (.start 5 6 1)] }.st ∉ restStates ∧
    { atLoop with hostIn := [some (.start 5 6 1)] }.command ≠ some .reset ∧
    ∃ t, step { atLoop with hostIn := [some (.start 5 6 1)] } = .next t :=
  ⟨rfl, ⟨_, rfl⟩, by decide, by decide, ⟨_, rfl⟩⟩

theorem witness_OnlyTheBuildersWriteTheFrameBuffer :
    (inState .aWait).command = none ∧ (inState .aWait).st ∉ [St.opening, .dRead, .fReport] ∧
    ∃ t, step { inState .aWait with rxIn := [.byte 0xAA] } = .next t ∧ t.frameLen ≤ 1028 :=
  ⟨rfl, by decide, ⟨_, rfl, by decide⟩⟩

/-- The announce frame is in the buffer and is written; also for StepKeepsTheFrameBeingSent. -/
theorem witness_EveryFrameWrittenIsWellFormed :
    let s := { withFrame .aSend (announceFrame 5 0x20000000) with
      reqLength := 5, reqAddress := 0x20000000, txIn := [.ok] }
    FrameInv s ∧ FrameInv atLoop ∧
      ∃ t, step s = .next t ∧ t.trace = s.trace ++ [.tx (announceFrame 5 0x20000000) .ok] := by
  refine ⟨⟨fun _ => rfl, fun h => ?_, fun h => ?_⟩, atLoop_frameInv,
    ⟨_, (step_of_no_command rfl).trans (engineStep_send (w := .aWait) rfl), rfl⟩⟩
  · rcases h with h | h <;> cases h
  · rcases h with h | h <;> cases h

/-- A frame written and owed its reply. -/
theorem witness_StepKeepsTheOrderOfWireEvents :
    let s := { inState .tWait with trace := [.tx [0xED, 0x04, 0xFB, 0, 0] .ok], rxIn := [.byte 0xAA] }
    WireInv s ∧ ∃ t, step s = .next t ∧ t.st = .done := ⟨rfl, ⟨_, rfl, rfl⟩⟩

theorem witness_NothingOfThePastShows :
    let s := { atLoop with trace := [.reset], frameBuf := [1, 2] }
    SameButPast atLoop s ∧ (∃ t, step atLoop = .next t) ∧ ∃ t, step s = .next t :=
  ⟨⟨rfl, rfl⟩, ⟨_, rfl⟩, ⟨_, rfl⟩⟩

theorem witness_StartForgetsTheTransferBefore :
    let s₁ := { inState .fault with faultCode := 2, frameNumber := 9, trace := [.reset] }
    let s₂ := inState .idle
    s₁.st ∈ restStates ∧ s₂.st ∈ restStates ∧ s₁.hostIn = s₂.hostIn ∧ s₁.openIn = s₂.openIn ∧
    s₁.readIn = s₂.readIn ∧ s₁.txIn = s₂.txIn ∧ s₁.rxIn = s₂.rxIn ∧ s₁.freeCount = s₂.freeCount ∧
    (∃ t, exec (.start 1 2 true) s₁ = .next t) ∧ ∃ t, exec (.start 1 2 true) s₂ = .next t :=
  ⟨by decide, by decide, rfl, rfl, rfl, rfl, rfl, rfl, ⟨_, rfl⟩, ⟨_, rfl⟩⟩

theorem witness_EveryTransferEndsWithinTheBound :
    (inState .idle).st ∈ restStates ∧ Quiet (inState .idle) ∧
    ∃ t, exec (.start 0xFFFFFFFF 0 true) (inState .idle) = .next t :=
  ⟨by decide, by simp [Quiet, inState, State.reset], ⟨_, rfl⟩⟩

/-- A transfer of one byte, and an empty one. -/
theorem witness_SuccessfulTransferHasExactlyItsTrace :
    let s := { inState .fault with
      openIn := [.ok], readIn := [.data [7]], txIn := [.ok, .ok, .ok], rxIn := List.replicate 3 (.byte 0xAA) }
    s.st ∈ restStates ∧ Quiet s ∧ IsChunking (1 : Word).toNat [[7]] ∧ IsChunking (0 : Word).toNat [] ∧
    s.openIn = .ok :: [] ∧ s.readIn = [[7]].map .data ++ [] ∧
    s.txIn = List.replicate (1 + 1 + (if true then 1 else 0)) .ok ++ [] ∧
    s.rxIn = List.replicate (1 + 1 + (if true then 1 else 0)) (.byte 0xAA) ++ [] := by
  refine ⟨by decide, by simp [Quiet, inState, State.reset], ⟨by decide, fun k c h => ?_⟩, ⟨by decide, fun k c h => by simp at h⟩,
    rfl, rfl, rfl, rfl⟩
  rcases k with _ | k
  · simp at h; subst h; rfl
  · simp at h

end Sys2Proof.Tests
end

section
/-! The status outputs and the reset values (10_state.md R34, R39): each field of `STATUS` as the register it reads, and
what RESET leaves in the registers. -/

namespace Sys2Proof.Machine

/-! ### The flags, in the terms of R34's table -/

theorem State.busy_eq (s : State) : s.busy = decide (s.st ∉ restStates) := by
  simp [State.busy, mem_restStates_iff]

/-! ### The fields of `STATUS`

Each proof drops the fields below its own, one at a time, and reads the lowest of what is left. -/

section Fields

variable (s : State)

@[simp] theorem status_state : s.status.extractLsb' 0 4 = s.st.code :=
  BitVec.extractLsb'_append_eq_right

@[simp] theorem status_busy : s.status.extractLsb' 4 1 = BitVec.ofBool s.busy := by
  unfold State.status
  rw [BitVec.extractLsb'_append_eq_of_le (by decide)]
  exact BitVec.extractLsb'_append_eq_right

@[simp] theorem status_doneFlag : s.status.extractLsb' 5 1 = BitVec.ofBool s.doneFlag := by
  unfold State.status
  iterate 2 rw [BitVec.extractLsb'_append_eq_of_le (by decide)]
  exact BitVec.extractLsb'_append_eq_right

@[simp] theorem status_faulted : s.status.extractLsb' 6 1 = BitVec.ofBool s.faulted := by
  unfold State.status
  iterate 3 rw [BitVec.extractLsb'_append_eq_of_le (by decide)]
  exact BitVec.extractLsb'_append_eq_right

@[simp] theorem status_reqTerm : s.status.extractLsb' 7 1 = BitVec.ofBool s.reqTerm := by
  unfold State.status
  iterate 4 rw [BitVec.extractLsb'_append_eq_of_le (by decide)]
  exact BitVec.extractLsb'_append_eq_right

@[simp] theorem status_faultCode : s.status.extractLsb' 8 3 = s.faultCode := by
  unfold State.status
  iterate 5 rw [BitVec.extractLsb'_append_eq_of_le (by decide)]
  exact BitVec.extractLsb'_append_eq_right

@[simp] theorem status_reserved_low : s.status.extractLsb' 11 1 = 0 := by
  unfold State.status
  iterate 6 rw [BitVec.extractLsb'_append_eq_of_le (by decide)]
  exact BitVec.extractLsb'_append_eq_right

@[simp] theorem status_faultAt : s.status.extractLsb' 12 4 = s.faultAt := by
  unfold State.status
  iterate 7 rw [BitVec.extractLsb'_append_eq_of_le (by decide)]
  exact BitVec.extractLsb'_append_eq_right

@[simp] theorem status_faultValue : s.status.extractLsb' 16 8 = s.faultValue := by
  unfold State.status
  iterate 8 rw [BitVec.extractLsb'_append_eq_of_le (by decide)]
  exact BitVec.extractLsb'_append_eq_right

@[simp] theorem status_reserved_high : s.status.extractLsb' 24 8 = 0 := by
  unfold State.status
  iterate 9 rw [BitVec.extractLsb'_append_eq_of_le (by decide)]
  exact BitVec.extractLsb'_eq_self

end Fields

/-- Settles O20: the field lemmas, with BUSY, DONE and FAULTED read as R34's conditions on `st`. -/
theorem statusWordHoldsItsFields : Obligations.StatusWordHoldsItsFields := fun s =>
  ⟨status_state s, (status_busy s).trans (congrArg BitVec.ofBool s.busy_eq), status_doneFlag s, status_faulted s,
    status_reqTerm s, status_faultCode s, status_reserved_low s, status_faultAt s, status_faultValue s,
    status_reserved_high s, rfl⟩

/-! ### The reset values -/

/-- RESET's meaning (70_reset_and_hazards.md R180). -/
@[simp] theorem exec_reset (s : State) : exec .reset s = .next s.resetRegisters := rfl

/-- In IDLE with the terminate flag and the fault registers clear, every field of `STATUS` is 0. -/
theorem status_of_cleared {t : State} (hst : t.st = .idle) (hterm : t.reqTerm = false) (hcode : t.faultCode = 0)
    (hvalue : t.faultValue = 0) (hat : t.faultAt = 0) : t.status = 0 := by
  simp [State.status, State.busy, State.doneFlag, State.faulted, St.isRest, St.code, hst, hterm, hcode, hvalue, hat]

/-- Settles O19: the power-on state and what RESET writes, register by register; STATUS then reads 0. -/
theorem resetStateHoldsTheResetValues : Obligations.ResetStateHoldsTheResetValues := by
  rintro t (rfl | ⟨s, hs⟩)
  · exact ⟨rfl, rfl, rfl, rfl, rfl, rfl, rfl, rfl, rfl, rfl, rfl, status_of_cleared rfl rfl rfl rfl rfl, rfl⟩
  · obtain rfl : s.resetRegisters = t := by simpa using hs
    have hstatus : s.resetRegisters.status = 0 := status_of_cleared rfl rfl rfl rfl rfl
    simp [hstatus, State.statusWords]

end Sys2Proof.Machine
end

section
/-! The SEND step and the WAIT step (42_handshake.md R111, R112): one rule for each answer of the transport, and the two
steps of the machine that follow them. -/

namespace Sys2Proof.Machine

/-! ### The SEND step, one rule for each answer to the write -/

section Send

variable {s : State} {w : St} (hw : s.st.afterSend = some w)
include hw

theorem transmit_ok (f : ByteStr) (ha : s.txAnswer = .ok) :
    transmit f s = { s.afterTx with st := w, trace := s.trace ++ [.tx f .ok] } := by
  simpa [hw, ha] using transmit_cases f s

theorem transmit_timeout (f : ByteStr) (ha : s.txAnswer = .timeout) :
    transmit f s = faultEntry 4 0 s.st.code { s.afterTx with trace := s.trace ++ [.tx f .timeout] } := by
  simpa [faultEntry, hw, ha] using transmit_cases f s

theorem transmit_ioerr (f : ByteStr) (ha : s.txAnswer = .ioerr) :
    transmit f s = faultEntry 3 0 s.st.code { s.afterTx with trace := s.trace ++ [.tx f .ioerr] } := by
  simpa [faultEntry, hw, ha] using transmit_cases f s

theorem step_send (hc : s.command = none) : step s = .next (transmit s.frame s.afterHost) :=
  (step_of_no_command hc).trans (engineStep_send hw)

end Send

/-- Settles O24: the step is `transmit` of the frame in the buffer, which has a rule for each answer. -/
theorem sendStepFollowsItsRule : Obligations.SendStepFollowsItsRule := by
  rintro _ w s hx rfl hc
  rw [mem_sendPairs_iff] at hx
  have hw : s.afterHost.st.afterSend = some w := hx
  rw [step_send hx hc]
  exact ⟨fun ha => congrArg _ (transmit_ok hw _ ha), fun ha => congrArg _ (transmit_timeout hw _ ha),
    fun ha => congrArg _ (transmit_ioerr hw _ ha)⟩

/-! ### The WAIT step, one rule for each answer to the read -/

section Wait

variable {s : State} {n : St} (hn : s.st.afterAck = some n)
include hn

theorem receive_ackOk : receive (.byte 0xAA) s =
    { s with st := n, trace := s.trace ++ [.rx (.byte 0xAA), .purgeIn, .purgeOut] } := by
  simpa [hn] using receive_cases (.byte 0xAA) s

theorem receive_ackOther {b : Byte} (hb : b ≠ 0xAA) :
    receive (.byte b) s = faultEntry 2 b s.st.code { s with trace := s.trace ++ [.rx (.byte b)] } := by
  have hb' : ¬ b = 170#8 := hb -- the numeral as `simp` writes it
  simpa [faultEntry, hn, hb'] using receive_cases (.byte b) s

theorem receive_timeout :
    receive .timeout s = faultEntry 1 0 s.st.code { s with trace := s.trace ++ [.rx .timeout] } := by
  simpa [faultEntry, hn] using receive_cases .timeout s

theorem receive_ioerr :
    receive .ioerr s = faultEntry 3 0 s.st.code { s with trace := s.trace ++ [.rx .ioerr] } := by
  simpa [faultEntry, hn] using receive_cases .ioerr s

theorem step_wait (hc : s.command = none) : step s = .next (receive s.rxAnswer s.afterHost.afterRx) :=
  (step_of_no_command hc).trans (engineStep_wait hn)

end Wait

/-- Settles O27: the step is `receive` of the transport's answer, which has a rule for each answer; consuming the answer
changes neither `st` nor the trace. -/
theorem waitStepFollowsItsRule : Obligations.WaitStepFollowsItsRule := by
  rintro _ n s hx rfl hc
  rw [mem_ackPairs_iff] at hx
  have hn : s.afterHost.afterRx.st.afterAck = some n := by simpa using hx
  rw [step_wait hx hc]
  refine ⟨fun ha => ?_, fun b hb ha => ?_, fun ha => ?_, fun ha => ?_⟩
  · rw [ha, receive_ackOk hn]; simp
  · rw [ha, receive_ackOther hn hb]; simp
  · rw [ha, receive_timeout hn]; simp
  · rw [ha, receive_ioerr hn]; simp

end Sys2Proof.Machine
end

section
/-! START (43_transfer.md R120, R121, R137): what it latches at rest, and the frame count it computes. -/

namespace Sys2Proof.Machine

/-! ### START, at rest and while a transfer runs -/

theorem exec_start_of_rest {s : State} (h : s.st ∈ restStates) (len addr : Word) (term : Bool) :
    exec (.start len addr term) s = .next (s.latch len addr term) := by
  have hrest : s.st.isRest = true := (mem_restStates_iff _).mp h
  simp [exec, execStart, hrest]

theorem exec_start_of_busy {s : State} (h : s.st ∉ restStates) (len addr : Word) (term : Bool) :
    exec (.start len addr term) s = .next s := by
  have hbusy : ¬ s.st.isRest = true := mt (mem_restStates_iff _).mpr h
  simp [exec, execStart, hbusy]

/-- Settles O16: outside the rest states START is the identity. -/
theorem startWhileBusyHasNoEffect : Obligations.StartWhileBusyHasNoEffect := fun len addr term _ h =>
  exec_start_of_busy h len addr term

/-- Settles O15: START at rest is `latch`, which leaves OPEN; the flags are functions of `st`. -/
theorem startLatchesTheRequest : Obligations.StartLatchesTheRequest := fun len addr term s =>
  ⟨fun h => exec_start_of_busy h len addr term,
    fun h => ⟨s.latch len addr term, exec_start_of_rest h len addr term, rfl, rfl, rfl, rfl⟩⟩

/-! ### The frame count -/

/-- A frame count fits its register: the ceiling is computed without overflow. -/
@[simp] theorem frameCountOf_toNat (len : Word) : (frameCountOf len).toNat = (len.toNat + 1023) / 1024 := by
  have hlen := len.isLt
  simp only [frameCountOf, ceilDiv, Config.CHUNK_SIZE, BitVec.toNat_ofNat]
  omega

/-- Settles O17: with the frame count known as a number, each clause is arithmetic on the length. -/
theorem frameCountIsTheCeiling : Obligations.FrameCountIsTheCeiling := by
  intro len addr term s t hrest ht
  obtain rfl : s.latch len addr term = t := by simpa [exec_start_of_rest hrest] using ht
  have hlen := len.isLt
  simp only [State.latch_frameCount, ← BitVec.toNat_inj, frameCountOf_toNat, BitVec.ofNat_eq_ofNat,
    BitVec.toNat_ofNat]
  refine ⟨trivial, ?_, ?_, ?_, ?_, ?_, ?_, ?_⟩ <;> omega

end Sys2Proof.Machine
end

section
/-! The Transfer Loop's steps (43_transfer.md R122, R124, R126, R129): one rule for each answer of the source and for
each branch of the two reports. -/

namespace Sys2Proof.Machine

/-! ### The frames of the loop, written out from 30_encoding.md R72, R74, R76 -/

theorem withChecksum_dataBody (q : Byte) (p : ByteStr) : withChecksum (dataBody q p) =
    [0xDA, q, 255 - q] ++ p ++ be16 (Config.CHECKSUM16 ([0xDA, q, 255 - q] ++ p)) := rfl

theorem terminateFrame_eq (q : Byte) :
    terminateFrame q = [0xED, q, 255 - q] ++ be16 (Config.CHECKSUM16 [0xED, q, 255 - q]) := rfl

@[simp] theorem terminateFrame_length (q : Byte) : (terminateFrame q).length = 5 := rfl

/-! ### The OPEN step, one rule for each answer -/

section Open

variable {s : State} (hs : s.st = .opening)
include hs

theorem openStep_ok (ha : s.openAnswer = .ok) : openStep s = { s.afterOpen with
    frameBuf := announceFrame s.reqLength s.reqAddress ++ s.frameBuf.drop 14
    frameLen := 14
    st := .aSend
    trace := s.trace ++ [.opened .ok] } := by
  simpa [ha] using openStep_cases hs

theorem openStep_notFound (ha : s.openAnswer = .notFound) :
    openStep s = faultEntry 5 0 1 { s.afterOpen with trace := s.trace ++ [.opened .notFound] } := by
  simpa [faultEntry, ha] using openStep_cases hs

theorem step_opening (hc : s.command = none) : step s = .next (openStep s.afterHost) :=
  (step_of_no_command hc).trans (engineStep_opening hs)

end Open

/-- Settles O31: the step is `openStep`, which has a rule for each answer. -/
theorem openStepFollowsItsRule : Obligations.OpenStepFollowsItsRule := by
  intro s hs hc
  have hs' : s.afterHost.st = .opening := hs
  rw [step_opening hs hc]
  exact ⟨fun ha => congrArg _ (openStep_ok hs' ha), fun ha => congrArg _ (openStep_notFound hs' ha)⟩

/-! ### READ_CHUNK in `D_READ`: the end of the loop, and one rule for each answer -/

section Read

variable {s : State} (hs : s.st = .dRead)
include hs

theorem readChunk_end (hr : s.remaining = 0) : readChunk s = { s with st := .fReport } := by
  simpa [hr] using readChunk_cases hs

variable (hr : s.remaining ≠ 0)
include hr

theorem readChunk_data {bytes : ByteStr} (ha : s.readAnswer (chunkLen s.remaining) = .data bytes) :
    readChunk s = { s.afterRead with
      frameNumber := s.frameNumber + 1
      remaining := s.remaining - BitVec.ofNat 32 (chunkLen s.remaining)
      frameBuf := withChecksum (dataBody (lo8 (s.frameNumber + 1)) bytes) ++
        s.frameBuf.drop (5 + chunkLen s.remaining)
      frameLen := 5 + chunkLen s.remaining
      st := .dSend
      trace := s.trace ++ [.read (chunkLen s.remaining) (.data bytes)] } := by
  rcases readChunk_cases hs with ⟨h0, -⟩ | ⟨-, b, hb, hl, e⟩ | ⟨-, a, he, hf, -⟩
  · exact absurd h0 hr
  · cases ha.symm.trans hb
    rw [e, hl]
  · rcases hf with rfl | rfl <;> cases ha.symm.trans he

theorem readChunk_fault {a : ReadAnswer} (ha : s.readAnswer (chunkLen s.remaining) = a) (hf : a = .eos ∨ a = .ioerr) :
    readChunk s = faultEntry 6 0 4 { s.afterRead with trace := s.trace ++ [.read (chunkLen s.remaining) a] } := by
  rcases readChunk_cases hs with ⟨h0, -⟩ | ⟨-, b, hb, -, -⟩ | ⟨-, a', ha', -, e⟩
  · exact absurd h0 hr
  · rcases hf with rfl | rfl <;> cases ha.symm.trans hb
  · cases ha.symm.trans ha'
    exact e

end Read

/-- Settles O32: a rule for each case, the data frame written out from its table. -/
theorem readChunkFollowsItsRule : Obligations.ReadChunkFollowsItsRule := by
  intro s hs
  refine ⟨fun hr => congrArg _ (readChunk_end hs hr), fun bytes hr ha => ?_,
    fun hr ha => congrArg _ (readChunk_fault hs hr ha (.inl rfl)),
    fun hr ha => congrArg _ (readChunk_fault hs hr ha (.inr rfl))⟩
  have hdata := readChunk_data hs hr ha
  rw [withChecksum_dataBody, lo8_eq_extract] at hdata
  exact congrArg _ hdata

/-! ### REPORT_PROGRESS: the cadence report and the final report, one rule for each branch -/

theorem exec_reportProgress_dReport {s : State} (hs : s.st = .dReport) :
    exec .reportProgress s = .next (cadenceReport s) := by
  simp [exec, execReportProgress, reportProgress, hs]

theorem exec_reportProgress_fReport {s : State} (hs : s.st = .fReport) :
    exec .reportProgress s = .next (finalReport s) := by
  simp [exec, execReportProgress, reportProgress, hs]

/-- The cadence predicate with its constants (R127). -/
theorem cadence_iff (fn fc : Nat) : cadence fn fc = true ↔ fn % (if fc > 250 then 10 else 3) = 0 :=
  decide_eq_true_iff

theorem pct_of_pos {fc : Nat} (h : 0 < fc) (fn : Nat) : pct fn fc = fn * 100 / fc :=
  if_neg h.ne'

@[simp] theorem pct_zero (fn : Nat) : pct fn 0 = 100 := rfl

theorem cadenceReport_of_cadence {s : State} (h : cadence s.frameNumber.toNat s.frameCount.toNat = true) :
    cadenceReport s = { s with
      st := .dRead, trace := s.trace ++ [.progress (pct s.frameNumber.toNat s.frameCount.toNat)] } :=
  if_pos h

theorem cadenceReport_of_not_cadence {s : State} (h : ¬ cadence s.frameNumber.toNat s.frameCount.toNat = true) :
    cadenceReport s = { s with st := .dRead } :=
  if_neg h

theorem finalReport_of_term {s : State} (h : s.reqTerm = true) : finalReport s = { s with
    frameBuf := terminateFrame (lo8 (s.frameNumber + 1)) ++ s.frameBuf.drop 5
    frameLen := 5
    st := .tSend
    trace := s.trace ++ [.progress 100] } :=
  if_pos h

theorem finalReport_of_no_term {s : State} (h : s.reqTerm = false) :
    finalReport s = { s with st := .done, trace := s.trace ++ [.progress 100] } :=
  if_neg (by simp [h])

/-- Settles O34: the cadence decides whether there is a report, the frame count which percentage it gives. -/
theorem cadenceReportFollowsItsRule : Obligations.CadenceReportFollowsItsRule := by
  intro s hs
  simp only [exec_reportProgress_dReport hs, ← cadence_iff, ne_eq]
  refine ⟨fun hk hpos => ?_, fun hk hzero => ?_, fun hk => ?_⟩
  · rw [cadenceReport_of_cadence hk, pct_of_pos hpos]
  · rw [cadenceReport_of_cadence hk, hzero, pct_zero]
  · rw [cadenceReport_of_not_cadence hk]

/-- Settles O35: both branches of the report, the terminate frame written out from its table. -/
theorem finalReportFollowsItsRule : Obligations.FinalReportFollowsItsRule := by
  intro s hs
  rw [exec_reportProgress_fReport hs]
  refine ⟨fun hterm => ?_, fun hterm => congrArg _ (finalReport_of_no_term hterm)⟩
  have hbuilt := finalReport_of_term hterm
  rw [terminateFrame_eq, lo8_eq_extract] at hbuilt
  exact congrArg _ hbuilt

end Sys2Proof.Machine
end

section
/-! Fault entry (60_exceptions.md R152, R153): which steps lead into FAULT, and what they record. -/

namespace Sys2Proof.Machine

/-- No command leads into FAULT. -/
theorem Commanded.st_ne_fault {u t : State} {c : Command} (h : Commanded u c t) (hu : u.st ≠ .fault) :
    t.st ≠ .fault := by
  cases h with
  | start => exact St.noConfusion
  | startBusy => exact hu
  | reset => exact St.noConfusion

/-! ### The states of the handshake, as R153's rows list them -/

theorem mem_sendStates {x w : St} (h : x.afterSend = some w) : x ∈ [St.aSend, .dSend, .tSend] := by
  rcases afterSend_some h with ⟨rfl, -⟩ | ⟨rfl, -⟩ | ⟨rfl, -⟩ <;> decide

theorem mem_waitStates {x n : St} (h : x.afterAck = some n) : x ∈ [St.aWait, .dWait, .tWait] := by
  rcases afterAck_some h with ⟨rfl, -⟩ | ⟨rfl, -⟩ | ⟨rfl, -⟩ <;> decide

theorem afterSend_ne_fault {x w : St} (h : x.afterSend = some w) : w ≠ .fault := by
  rcases afterSend_some h with ⟨-, rfl⟩ | ⟨-, rfl⟩ | ⟨-, rfl⟩ <;> decide

theorem afterAck_ne_fault {x n : St} (h : x.afterAck = some n) : n ≠ .fault := by
  rcases afterAck_some h with ⟨-, rfl⟩ | ⟨-, rfl⟩ | ⟨-, rfl⟩ <;> decide

/-- Settles O43: no command enters FAULT, and of the rows of the next-state table only the four kinds of fault do; the
transport's answer then selects the row of R153. -/
theorem faultEntryIsPrecise : Obligations.FaultEntryIsPrecise := by
  intro s t hs hnext ht
  rcases step_cases hnext with ⟨c, -, hc⟩ | ⟨-, hstep⟩
  · exact absurd ht (hc.st_ne_fault hs)
  cases hstep with
  | openFault hopen ha =>
    have hopen : s.st = .opening := hopen
    exact ⟨by simp [hopen, St.code], .inl ⟨hopen, ha, rfl, rfl, rfl⟩, by simp⟩
  | sendFault w hw c hc =>
    have hmem := mem_sendStates hw
    refine ⟨rfl, .inr ?_, by simp⟩
    rcases hc with ⟨ha, rfl⟩ | ⟨ha, rfl⟩
    · exact .inl ⟨hmem, ha, rfl, rfl, by simp [← ha]⟩
    · exact .inr (.inl ⟨hmem, ha, rfl, rfl, by simp [← ha]⟩)
  | waitFault n hn c v hc =>
    have hmem := mem_waitStates hn
    refine ⟨rfl, .inr (.inr (.inr ?_)), by simp⟩
    rcases hc with ⟨ha, hv, rfl⟩ | ⟨ha, rfl, rfl⟩ | ⟨ha, rfl, rfl⟩
    · exact .inr (.inr (.inl ⟨hmem, ha, hv, rfl, by simp [← ha]⟩))
    · exact .inl ⟨hmem, ha, rfl, rfl, by simp [← ha]⟩
    · exact .inr (.inl ⟨hmem, ha, rfl, rfl, by simp [← ha]⟩)
  | chunkFault hread hr a ha he =>
    have hread : s.st = .dRead := hread
    refine ⟨by simp [hread, St.code], .inr (.inr (.inr (.inr (.inr (.inr ⟨hread, hr, rfl, rfl, ?_⟩))))), by simp⟩
    rcases he with rfl | rfl
    · exact .inl ⟨ha, rfl⟩
    · exact .inr ⟨ha, rfl⟩
  | rest => exact absurd ht hs
  | sendOk w hw => exact absurd ht (afterSend_ne_fault hw)
  | waitOk n hn => exact absurd ht (afterAck_ne_fault hn)
  | _ => cases ht

end Sys2Proof.Machine
end

section
/-! RESET (70_reset_and_hazards.md R180): the state it leaves, register by register. -/

namespace Sys2Proof.Machine

/-- Settles O18: RESET leaves `resetRegisters`, whose buffer is the 1029 free values of the next draw. -/
theorem resetSetsEveryRegister : Obligations.ResetSetsEveryRegister := fun s =>
  ⟨freeFrameBuf s.freeCount, s.freeCount + 1, freeFrameBuf_length s.freeCount, exec_reset s⟩

end Sys2Proof.Machine
end

section
/-! The encodings (30_encoding.md R70 to R80): the decoder undoes the encoder on each kind of frame, and what decodes is
one of three kinds of frame, spelled out. -/

namespace Sys2Proof.Machine

/-! ### Decoding an encoding -/

theorem decodeFrame_announce (len addr : Word) (ck : Half) :
    decodeFrame (announceBody len addr ++ be16 ck) = .ok (.frameAnnounce len addr ck) := by
  simp [decodeFrame, decodeAnnounce, announceBody, be32, be16, Config.MARK_ANNOUNCE, ofBe32_be32, ofBe16_be16]

theorem decodeFrame_data (seq nseq : Byte) {payload : ByteStr} (ck : Half) (hp : payload.length ≤ 1024) :
    decodeFrame (dataBytes seq nseq payload ++ be16 ck) = .ok (.frameData seq nseq payload ck) := by
  simp [decodeFrame, decodeData, dataBytes, be16, Config.MARK_ANNOUNCE, Config.MARK_DATA, Config.CHUNK_SIZE, hp,
    ofBe16_be16]

theorem decodeFrame_terminate (seq nseq : Byte) (ck : Half) :
    decodeFrame (terminateBytes seq nseq ++ be16 ck) = .ok (.frameTerminate seq nseq ck) := by
  simp [decodeFrame, decodeTerminate, terminateBytes, be16, Config.MARK_ANNOUNCE, Config.MARK_DATA, Config.MARK_TERM,
    ofBe16_be16]

theorem decodeAck_AA : decodeAck 0xAA = .ackOk := rfl

theorem decodeAck_of_ne {v : Byte} (h : v ≠ 0xAA) : decodeAck v = .ackOther v := if_neg h

/-- R72: well-formedness bounds the payload. -/
theorem payload_of_wf {seq nseq : Byte} {payload : ByteStr} {ck : Half}
    (h : (Instr.frameData seq nseq payload ck).wf = true) : payload.length ≤ 1024 := by
  simp only [Instr.wf, Bool.and_eq_true, decide_eq_true_eq] at h
  exact h.1.2

/-- Settles O1: one case for each instruction that has an encoding. -/
theorem decodeOfEncodeIsTheInstruction : Obligations.DecodeOfEncodeIsTheInstruction := by
  intro i st bs hwf henc
  cases i <;> cases henc
  case frameAnnounce => exact decodeFrame_announce _ _ _
  case frameData => exact decodeFrame_data _ _ _ (payload_of_wf hwf)
  case frameTerminate => exact decodeFrame_terminate _ _ _
  case ackOk => exact congrArg _ decodeAck_AA
  case ackOther v => exact congrArg _ (decodeAck_of_ne (of_decide_eq_true hwf))

/-! ### What decodes, and what it is the encoding of -/

theorem decodeAnnounce_ok {bs : ByteStr} {i : Instr} (h : decodeAnnounce bs = .ok i) :
    ∃ len addr ck, i = .frameAnnounce len addr ck ∧ bs = announceBody len addr ++ be16 ck := by
  unfold decodeAnnounce at h
  split at h
  · split at h
    · rename_i hmark
      cases h
      refine ⟨_, _, _, rfl, ?_⟩
      rw [announceBody, ← hmark, be32_ofBe32, be32_ofBe32, be16_ofBe16]
      rfl
    · cases h
  · cases h

theorem decodeData_ok {bs : ByteStr} {i : Instr} (h : decodeData bs = .ok i) :
    ∃ seq nseq payload ck, i = .frameData seq nseq payload ck ∧
      Config.MARK_DATA :: bs = dataBytes seq nseq payload ++ be16 ck ∧ payload.length ≤ 1024 := by
  unfold decodeData at h
  split at h
  · rename_i seq nseq tail
    split at h
    · rename_i c1 c0 hdrop
      split at h
      · rename_i hlen
        cases h
        have htail : tail.take (tail.length - 2) ++ [c1, c0] = tail := by rw [← hdrop, List.take_append_drop]
        refine ⟨_, _, _, _, rfl, ?_, (List.length_take_le _ _).trans hlen⟩
        rw [be16_ofBe16, dataBytes, List.cons_append, List.cons_append, List.cons_append, htail]
      · cases h
    · cases h
  · cases h

theorem decodeTerminate_ok {bs : ByteStr} {i : Instr} (h : decodeTerminate bs = .ok i) :
    ∃ seq nseq ck, i = .frameTerminate seq nseq ck ∧
      Config.MARK_TERM :: bs = terminateBytes seq nseq ++ be16 ck := by
  unfold decodeTerminate at h
  split at h
  · cases h
    exact ⟨_, _, _, rfl, by rw [be16_ofBe16]; rfl⟩
  · cases h

/-- Everything a frame that decodes can be (R78). -/
theorem decode_transmit_ok {bs : ByteStr} {i : Instr} (h : decode .transmit bs = .ok i) :
    (∃ len addr ck, i = .frameAnnounce len addr ck ∧ bs = announceBody len addr ++ be16 ck) ∨
    (∃ seq nseq payload ck, i = .frameData seq nseq payload ck ∧ bs = dataBytes seq nseq payload ++ be16 ck ∧
      payload.length ≤ 1024) ∨
    (∃ seq nseq ck, i = .frameTerminate seq nseq ck ∧ bs = terminateBytes seq nseq ++ be16 ck) := by
  simp only [decode] at h
  unfold decodeFrame at h
  split at h
  · cases h
  · split at h
    · exact .inl (decodeAnnounce_ok h)
    · split at h
      · subst_vars; exact .inr (.inl (decodeData_ok h))
      · split at h
        · subst_vars; exact .inr (.inr (decodeTerminate_ok h))
        · cases h

theorem encode_decodeAck (b : Byte) : encode (decodeAck b) = some (.receive, [b]) := by
  unfold decodeAck
  split
  · subst_vars; rfl
  · rfl

/-- Settles O2: a frame is one of the three kinds, a reply is its one byte. -/
theorem encodeOfDecodeIsTheBytes : Obligations.EncodeOfDecodeIsTheBytes := by
  intro st bs i h
  cases st with
  | transmit =>
    obtain ⟨len, addr, ck, rfl, rfl⟩ | ⟨seq, nseq, payload, ck, rfl, rfl, -⟩ | ⟨seq, nseq, ck, rfl, rfl⟩ :=
      decode_transmit_ok h <;> rfl
  | receive =>
    simp only [decode] at h
    split at h
    · cases h
    · cases h; exact encode_decodeAck _
    · cases h

/-- Settles O4: the kinds of `decode_transmit_ok`, with the byte each begins with and its length. -/
theorem firstByteSelectsFrameKind : Obligations.FirstByteSelectsFrameKind := by
  intro b rest i h
  obtain ⟨len, addr, ck, rfl, hbs⟩ | ⟨seq, nseq, payload, ck, rfl, hbs, hlen⟩ | ⟨seq, nseq, ck, rfl, hbs⟩ :=
    decode_transmit_ok h
  · exact .inl ⟨(List.cons.inj hbs).1, by rw [hbs]; rfl, len, addr, ck, rfl⟩
  · refine .inr (.inl ⟨(List.cons.inj hbs).1, seq, nseq, payload, ck, rfl, ?_, hlen⟩)
    rw [hbs, List.length_append, dataBytes_length, be16_length]
    omega
  · exact .inr (.inr ⟨(List.cons.inj hbs).1, by rw [hbs]; rfl, seq, nseq, ck, rfl⟩)

/-! ### Written-out bytes, replies and strobes -/

/-- Settles O3: each word by computation. -/
theorem writtenOutWordsDecode : Obligations.WrittenOutWordsDecode := ⟨rfl, rfl, rfl, rfl, rfl⟩

/-- Settles O5: `decodeAck` is the table of R80. -/
theorem everyReplyByteDecodes : Obligations.EveryReplyByteDecodes := fun _ => rfl

theorem decodeCommand_start (len addr : Word) (term : Bool) :
    decodeCommand (.start len addr (BitVec.ofBool term)) = .start len addr term := by
  cases term <;> rfl

/-- Settles O6: TERM is read as the flag it is encoded from, and only START and RESET have a strobe. -/
theorem commandStrobesDecode : Obligations.CommandStrobesDecode := by
  refine ⟨fun len addr => ⟨decodeCommand_start len addr true, decodeCommand_start len addr false⟩, rfl, ?_⟩
  intro i c h
  cases i <;> cases h
  case start len addr term => exact decodeCommand_start len addr term
  case reset => rfl

end Sys2Proof.Machine
end

section
/-! The Checksum Function and the Frame Builder (40_checksum.md; 41_frame_builder.md): what the builders store, and that
what they build reads back. A built frame is the encoding of a well-formed instruction, so it decodes to that
instruction; that the builders are injective is read off from there. -/

namespace Sys2Proof.Machine

/-! ### Built frames are encodings, and decode -/

theorem wf_frameAnnounce (len addr : Word) :
    (Instr.frameAnnounce len addr (checksumOf (announceBody len addr))).wf = true :=
  decide_eq_true rfl

theorem wf_frameData (seq : Byte) {payload : ByteStr} (h : payload.length ≤ 1024) :
    (Instr.frameData seq (cpl8 seq) payload (checksumOf (dataBody seq payload))).wf = true := by
  simp [Instr.wf, dataBody, Config.CHUNK_SIZE, h]

theorem wf_frameTerminate (seq : Byte) :
    (Instr.frameTerminate seq (cpl8 seq) (checksumOf (terminateBody seq))).wf = true := by
  simp [Instr.wf, terminateBody]

theorem decode_announceFrame (len addr : Word) : decode .transmit (announceFrame len addr) =
    .ok (.frameAnnounce len addr (checksumOf (announceBody len addr))) :=
  decodeFrame_announce len addr _

theorem decode_dataFrame (seq : Byte) {payload : ByteStr} (h : payload.length ≤ 1024) :
    decode .transmit (withChecksum (dataBody seq payload)) =
      .ok (.frameData seq (cpl8 seq) payload (checksumOf (dataBody seq payload))) :=
  decodeFrame_data seq (cpl8 seq) _ h

theorem decode_terminateFrame (seq : Byte) : decode .transmit (terminateFrame seq) =
    .ok (.frameTerminate seq (cpl8 seq) (checksumOf (terminateBody seq))) :=
  decodeFrame_terminate seq (cpl8 seq) _

/-- Settles O7: the checksum is that of the frame's body. -/
theorem builtFramesAreWellFormed : Obligations.BuiltFramesAreWellFormed := by
  refine ⟨fun len addr => ⟨_, wf_frameAnnounce len addr, rfl⟩, fun seq payload f hf => ?_,
    fun seq => ⟨_, wf_frameTerminate seq, rfl⟩⟩
  obtain ⟨hlen, rfl⟩ := dataFrame_ok hf
  exact ⟨_, wf_frameData seq hlen, rfl⟩

/-- Settles O14: equal frames decode to equal instructions, and frames of two kinds to different ones. -/
theorem buildersAreInjective : Obligations.BuildersAreInjective := by
  refine ⟨fun l₁ a₁ l₂ a₂ h => ?_, fun q₁ q₂ p₁ p₂ f h₁ h₂ => ?_, fun q₁ q₂ h => ?_, fun l a q₁ q₂ p f h₁ => ?_⟩
  · have hdec := decode_announceFrame l₁ a₁
    rw [h, decode_announceFrame] at hdec
    cases hdec
    exact ⟨rfl, rfl⟩
  · obtain ⟨hlen₁, rfl⟩ := dataFrame_ok h₁
    obtain ⟨hlen₂, hf⟩ := dataFrame_ok h₂
    have hdec := decode_dataFrame q₁ hlen₁
    rw [hf, decode_dataFrame q₂ hlen₂] at hdec
    cases hdec
    exact ⟨rfl, rfl⟩
  · have hdec := decode_terminateFrame q₁
    rw [h, decode_terminateFrame] at hdec
    cases hdec
    rfl
  · obtain ⟨hlen, rfl⟩ := dataFrame_ok h₁
    have hdec := decode_dataFrame q₁ hlen
    refine ⟨fun h => ?_, fun h => ?_, fun h => ?_⟩
    · rw [h, decode_announceFrame] at hdec; cases hdec
    · rw [h, decode_terminateFrame] at hdec; cases hdec
    · have hann := decode_announceFrame l a
      rw [h, decode_terminateFrame] at hann
      cases hann

/-! ### The fields of a built frame -/

theorem toNat_add_cpl8 (seq : Byte) : seq.toNat + (cpl8 seq).toNat = 255 := by
  have := seq.isLt
  rw [cpl8_toNat]
  omega

/-- Everything before the checksum is the body it is computed of. -/
theorem take_withChecksum (body : ByteStr) :
    (withChecksum body).take ((withChecksum body).length - 2) = body := by
  simp [withChecksum]

/-- Settles O13: each field is a slice of its operand, and the slices join to the operand again. -/
theorem builderResultsReadBack : Obligations.BuilderResultsReadBack := by
  refine ⟨fun len addr => ?_, fun seq payload f hf => ?_, fun seq => ?_⟩
  · exact ⟨_, _, _, _, _, _, _, _, _, _, rfl, rfl, ofBe32_be32 len, ofBe32_be32 addr, ofBe16_be16 _⟩
  · obtain ⟨hlen, rfl⟩ := dataFrame_ok hf
    refine ⟨cpl8 seq, _, _, rfl, ?_, ?_, toNat_add_cpl8 seq, ?_⟩
    · rw [withChecksum_length, dataBody_length]; omega
    · rw [withChecksum_length, dataBody_length]; omega
    · rw [take_withChecksum]; exact ofBe16_be16 _
  · exact ⟨cpl8 seq, _, _, rfl, toNat_add_cpl8 seq, ofBe16_be16 _⟩

/-! ### What CHECKSUM and the builders leave -/

/-- Settles O8: CHECKSUM's meaning, its one field written out. -/
theorem checksumGivesTheParameter : Obligations.ChecksumGivesTheParameter := fun _ _ => rfl

theorem exec_buildAnnounce (len addr : Word) (s : State) :
    exec (.buildAnnounce len addr) s = .next (s.storeFrame (announceFrame len addr)) := rfl

theorem exec_buildTerminate (seq : Byte) (s : State) :
    exec (.buildTerminate seq) s = .next (s.storeFrame (terminateFrame seq)) := rfl

theorem exec_buildData_of_le (seq : Byte) {payload : ByteStr} (h : payload.length ≤ 1024) (s : State) :
    exec (.buildData seq payload) s = .next (s.storeFrame (withChecksum (dataBody seq payload))) := by
  simp [exec, execBuildData, buildDataInto, dataFrame_of_le h]

theorem exec_buildData_of_gt (seq : Byte) {payload : ByteStr} (h : 1024 < payload.length) (s : State) :
    exec (.buildData seq payload) s = .next (s.raise .invalidArgument 0) := by
  simp [exec, execBuildData, buildDataInto, dataFrame_of_gt h]

/-- Settles O9: the stored frame, written out from its table. -/
theorem buildAnnounceStoresItsFrame : Obligations.BuildAnnounceStoresItsFrame := exec_buildAnnounce

/-- Settles O11: the stored frame, written out from its table. -/
theorem buildTerminateStoresItsFrame : Obligations.BuildTerminateStoresItsFrame := exec_buildTerminate

/-- Settles O10: the frame is stored up to 1024 bytes; above, the fault is taken unless one already is. -/
theorem buildDataStoresItsFrameOrFaults : Obligations.BuildDataStoresItsFrameOrFaults := by
  intro seq payload s
  refine ⟨fun hle => ?_, fun hgt hne => ?_, fun hgt hfault => ?_⟩
  · have hlen : (withChecksum (dataBody seq payload)).length = 5 + payload.length := by
      rw [withChecksum_length, dataBody_length]; omega
    rw [exec_buildData_of_le seq hle, State.storeFrame, hlen]
    rfl
  · rw [exec_buildData_of_gt seq hgt, State.raise_of_ne hne]; rfl
  · rw [exec_buildData_of_gt seq hgt, State.raise_of_fault hfault]

/-- Storing a frame makes it the frame, and writes nothing above it (R103). -/
theorem storeFrame_keeps_above (f : ByteStr) (s : State) :
    (s.storeFrame f).frame.length = (s.storeFrame f).frameLen ∧
      ∀ k, (s.storeFrame f).frameLen ≤ k → (s.storeFrame f).frameBuf[k]? = s.frameBuf[k]? :=
  ⟨by rw [storeFrame_frame, State.storeFrame_frameLen], fun _ hk => storeFrame_above hk⟩

/-- Settles O12: each of the three builders stores a frame. -/
theorem buildersKeepTheBytesAboveTheFrame : Obligations.BuildersKeepTheBytesAboveTheFrame := by
  rintro i s t (⟨len, addr, rfl⟩ | ⟨seq, payload, rfl, hle⟩ | ⟨seq, rfl⟩) h
  · rw [exec_buildAnnounce] at h
    cases h
    exact storeFrame_keeps_above _ s
  · rw [exec_buildData_of_le seq hle] at h
    cases h
    exact storeFrame_keeps_above _ s
  · rw [exec_buildTerminate] at h
    cases h
    exact storeFrame_keeps_above _ s

end Sys2Proof.Machine
end

section
/-! One step against the next-state table (43_transfer.md R132), and what it follows about the instruction presented and
about the rest states. -/

namespace Sys2Proof.Machine

/-! ### The rows of the table -/

theorem tableRow_rest {s : State} (h : s.st.isRest = true) : tableRow s = ([], s.st) := by
  cases hs : s.st <;> simp [hs, St.isRest] at h <;> simp [tableRow, hs]

theorem tableRow_send {s : State} {w : St} (h : s.st.afterSend = some w) :
    tableRow s = ([.tx s.frame s.txAnswer], if s.txAnswer = .ok then w else .fault) := by
  rcases afterSend_some h with ⟨hs, rfl⟩ | ⟨hs, rfl⟩ | ⟨hs, rfl⟩ <;> simp [tableRow, tableRow.sendRow, hs]

theorem tableRow_wait {s : State} {n : St} (h : s.st.afterAck = some n) :
    tableRow s = if s.rxAnswer = .byte 0xAA then ([.rx s.rxAnswer, .purgeIn, .purgeOut], n)
      else ([.rx s.rxAnswer], .fault) := by
  rcases afterAck_some h with ⟨hs, rfl⟩ | ⟨hs, rfl⟩ | ⟨hs, rfl⟩ <;> simp [tableRow, tableRow.waitRow, hs]

theorem tableRow_dRead_end {s : State} (h : s.st = .dRead) (hr : s.remaining = 0) : tableRow s = ([], .fReport) := by
  simp [tableRow, h, hr]

theorem tableRow_dRead {s : State} (h : s.st = .dRead) (hr : s.remaining ≠ 0) {a : ReadAnswer}
    (ha : s.readAnswer (chunkLen s.remaining) = a) :
    tableRow s = ([.read (chunkLen s.remaining) a], if a = .eos ∨ a = .ioerr then .fault else .dSend) := by
  have ha' : s.readAnswer (min 1024 s.remaining.toNat) = a := ha
  have hr' : ¬ s.remaining = 0#32 := hr -- the numeral as `simp` writes it
  cases a <;> simp [tableRow, h, hr', ha', chunkLen, Config.CHUNK_SIZE]

theorem tableRow_report {s : State} (h : s.st = .dReport)
    (hk : cadence s.frameNumber.toNat s.frameCount.toNat = true) :
    tableRow s = ([.progress (pct s.frameNumber.toNat s.frameCount.toNat)], .dRead) := by
  simp only [tableRow, h, (cadence_iff _ _).mp hk, if_true, pct]

theorem tableRow_noReport {s : State} (h : s.st = .dReport)
    (hk : cadence s.frameNumber.toNat s.frameCount.toNat = false) : tableRow s = ([], .dRead) := by
  have hk' := mt (cadence_iff _ _).mpr (Bool.eq_false_iff.mp hk)
  simp only [tableRow, h, if_neg hk']

/-- The answers that fail a WAIT step are not the acknowledgment (42_handshake.md R112). -/
theorem rxAnswer_ne_ackOk {a : RxAnswer} {v : Byte} {c : BitVec 3}
    (h : (a = .byte v ∧ v ≠ 0xAA ∧ c = 2) ∨ (a = .timeout ∧ v = 0 ∧ c = 1) ∨ (a = .ioerr ∧ v = 0 ∧ c = 3)) :
    a ≠ .byte 0xAA := by
  rcases h with ⟨rfl, hv, -⟩ | ⟨rfl, -⟩ | ⟨rfl, -⟩
  · exact fun hb => hv (RxAnswer.byte.inj hb)
  · exact RxAnswer.noConfusion
  · exact RxAnswer.noConfusion

/-- The engine's own transition appends its row's events and moves to its row's state. -/
theorem Stepped.follows_tableRow {u t : State} (h : Stepped u t) :
    t.trace = u.trace ++ (tableRow u).1 ∧ t.st = (tableRow u).2 := by
  cases h with
  | rest h => simp [tableRow_rest h]
  | openOk h ha => simp [tableRow, h, ha]
  | openFault h ha => simp [tableRow, h, ha]
  | sendOk w h ha => simp [tableRow_send h, ha]
  | sendFault w h c hc => rcases hc with ⟨ha, -⟩ | ⟨ha, -⟩ <;> simp [tableRow_send h, ha]
  | waitOk n h ha => simp [tableRow_wait h, ha]
  | waitFault n h c v hc =>
    simp only [tableRow_wait h, if_neg (rxAnswer_ne_ackOk hc), and_self]
  | chunkEnd h hr => simp [tableRow_dRead_end h hr]
  | chunkData h hr bytes ha hl => simp [tableRow_dRead h hr ha]
  | chunkFault h hr a ha he => simp [tableRow_dRead h hr ha, he]
  | report h hk => simp [tableRow_report h hk]
  | noReport h hk => simp [tableRow_noReport h hk]
  | finalTerm h ht => simp [tableRow, h, ht]
  | finalDone h ht => simp [tableRow, h, ht]

/-- The table does not see the host port. -/
@[simp] theorem tableRow_afterHost (s : State) : tableRow s.afterHost = tableRow s := rfl

/-- A step without a command is the engine's own transition. -/
theorem stepped_of_step {s t : State} (hc : s.command = none) (h : step s = .next t) : Stepped s.afterHost t :=
  stepped_of_engineStep (step_of_no_command hc ▸ h)

/-- A step with a command is its effect. -/
theorem commanded_of_step {s t : State} {c : Command} (hc : s.command = some c) (h : step s = .next t) :
    Commanded s.afterHost c t :=
  commanded_of_exec (step_of_command hc ▸ h)

theorem isRest_cases {x : St} (h : x.isRest = true) : x = .idle ∨ x = .done ∨ x = .fault := by
  simpa [restStates] using (mem_restStates_iff x).mpr h

/-- Settles O40: the engine's own transition is a row of the table, and a command is one of its effects. -/
theorem stepFollowsTheNextStateTable : Obligations.StepFollowsTheNextStateTable := by
  intro s t h
  refine ⟨fun hc => (stepped_of_step hc h).follows_tableRow, fun hc => ?_, fun len addr term hc => ?_⟩
  · cases commanded_of_step hc h
    exact ⟨rfl, rfl⟩
  · cases commanded_of_step hc h with
    | start _ _ _ hrest =>
      exact ⟨fun _ => ⟨rfl, rfl⟩, fun hbusy => absurd ((mem_restStates_iff _).mpr hrest) hbusy⟩
    | startBusy _ _ _ hbusy =>
      have hnot : s.st ∉ restStates := fun hm => by simp [(mem_restStates_iff _).mp hm] at hbusy
      exact ⟨fun hrest => absurd hrest hnot, fun _ => rfl⟩

/-! ### The instruction presented, and the rest states -/

theorem step_dRead {s : State} (hs : s.st = .dRead) (hc : s.command = none) :
    step s = .next (readChunk s.afterHost) :=
  (step_of_no_command hc).trans (engineStep_dRead hs)

theorem step_dReport {s : State} (hs : s.st = .dReport) (hc : s.command = none) :
    step s = .next (cadenceReport s.afterHost) :=
  (step_of_no_command hc).trans (engineStep_dReport hs)

theorem step_fReport {s : State} (hs : s.st = .fReport) (hc : s.command = none) :
    step s = .next (finalReport s.afterHost) :=
  (step_of_no_command hc).trans (engineStep_fReport hs)

/-- Settles O38: a host command first; without one, the instruction that the buffer, the port or `st` presents. -/
theorem stepRunsThePresentedInstruction : Obligations.StepRunsThePresentedInstruction := by
  intro s
  refine ⟨fun c hc => step_of_command hc, ?_, ?_, fun hc hs => ?_, fun hc hs => ?_⟩
  · rintro _ w i hc hx rfl hi
    rw [step_send ((mem_sendPairs_iff _ _).mp hx) hc, execFrame_of_decode hi]
  · rintro _ n b i hc hx rfl hb hi
    cases hi
    rw [step_wait ((mem_ackPairs_iff _ _).mp hx) hc, hb, exec_decodeAck]
  · exact step_dRead hs hc
  · rcases hs with hs | hs
    · exact (step_dReport hs hc).trans (exec_reportProgress_dReport (s := s.afterHost) hs).symm
    · exact (step_fReport hs hc).trans (exec_reportProgress_fReport (s := s.afterHost) hs).symm

/-- Settles O41: the engine has no transition of its own there. -/
theorem restStatesStayUntilACommand : Obligations.RestStatesStayUntilACommand := fun s hrest hc =>
  (step_of_no_command hc).trans (engineStep_rest ((mem_restStates_iff s.st).mp hrest))

theorem exec_answers (i : Instr) (s : State) : ∃ t, exec i s = .next t := by
  cases i <;> exact ⟨_, rfl⟩

theorem engineStep_answers (s : State) : ∃ t, engineStep s = .next t := by
  rcases engineStep_cases s with ⟨-, e⟩ | ⟨-, e⟩ | ⟨-, e⟩ | ⟨-, e⟩ | ⟨-, e⟩ | ⟨-, e⟩ | ⟨-, e⟩ <;> exact ⟨_, e⟩

/-- Every step answers, so a run never stops early. -/
theorem step_answers (s : State) : ∃ t, step s = .next t := by
  cases hc : s.command with
  | none => exact step_of_no_command hc ▸ engineStep_answers s.afterHost
  | some c => exact step_of_command hc ▸ exec_answers (decodeCommand c) s.afterHost

/-- Settles O39: neither a step nor an operation has a fault or a refusal among its outcomes. -/
theorem everyStepAnswersANextState : Obligations.EveryStepAnswersANextState := ⟨step_answers, exec_answers⟩

end Sys2Proof.Machine
end

section
/-! The register invariants (10_state.md R40; 00_scope.md R9). A step of the engine either takes a chunk from the
source, which moves the counters, or leaves the counters and the chunks as they are; what it does to the buffer and to
the fault code is said beside. -/

namespace Sys2Proof.Machine

/-! ### The chunks and the reports, event by event -/

theorem chunks_append {s t : State} (es : List Event) (h : t.trace = s.trace ++ es)
    (hes : ∀ e ∈ es, e.begins = false) : chunks t = chunks s ++ es.filterMap chunkOf := by
  rw [chunks, h, currentTransfer_append _ _ hes, List.filterMap_append, chunks]

theorem reports_append {s t : State} (es : List Event) (h : t.trace = s.trace ++ es)
    (hes : ∀ e ∈ es, e.begins = false) : reports t = reports s ++ es.filterMap reportOf := by
  rw [reports, h, currentTransfer_append _ _ hes, List.filterMap_append, reports]

/-- A command that begins a transfer, or ends one, leaves no chunk and no report. -/
theorem chunks_of_begins {s t : State} {e : Event} (h : t.trace = s.trace ++ [e]) (he : e.begins = true) :
    chunks t = [] := by
  rw [chunks, h, currentTransfer_begins _ he, List.filterMap_nil]

theorem reports_of_begins {s t : State} {e : Event} (h : t.trace = s.trace ++ [e]) (he : e.begins = true) :
    reports t = [] := by
  rw [reports, h, currentTransfer_begins _ he, List.filterMap_nil]

/-! ### The frame a builder leaves in the buffer -/

/-- `t` has `f` stored over `s`'s buffer (41_frame_builder.md R103). -/
structure Stores (f : ByteStr) (s t : State) : Prop where
  frameBuf : t.frameBuf = (s.storeFrame f).frameBuf
  frameLen : t.frameLen = f.length

section Stores

variable {f : ByteStr} {s t : State}

theorem Stores.frame (h : Stores f s t) : t.frame = f := by
  rw [State.frame, h.frameBuf, h.frameLen]
  exact storeFrame_frame f s

theorem Stores.above (h : Stores f s t) (k : Nat) (hk : t.frameLen ≤ k) : t.frameBuf[k]? = s.frameBuf[k]? := by
  rw [h.frameBuf]
  exact storeFrame_above (h.frameLen ▸ hk)

theorem Stores.bufLength (h : Stores f s t) (hs : s.frameBuf.length = 1029) (hf : f.length ≤ 1029) :
    t.frameBuf.length = 1029 := by
  rw [h.frameBuf]
  exact storeFrame_bufLength hs hf

end Stores

theorem dataFrame_length (q : Byte) (p : ByteStr) : (withChecksum (dataBody q p)).length = 5 + p.length := by
  rw [withChecksum_length, dataBody_length]
  omega

/-! ### What one transition does to the registers -/

section Transition

variable {u t : State}

/-- No transition of the engine writes the request or the frame count (10_state.md R22, R23). -/
theorem Stepped.keeps_request (h : Stepped u t) : t.reqLength = u.reqLength ∧ t.reqAddress = u.reqAddress ∧
    t.reqTerm = u.reqTerm ∧ t.frameCount = u.frameCount := by
  cases h <;> simp

theorem isRest_ne_dSend {x : St} (h : x.isRest = true) : x ≠ .dSend := by
  rintro rfl; cases h

theorem afterSend_ne_dSend {x w : St} (h : x.afterSend = some w) : w ≠ .dSend := by
  rcases afterSend_some h with ⟨-, rfl⟩ | ⟨-, rfl⟩ | ⟨-, rfl⟩ <;> decide

theorem afterAck_ne_dSend {x n : St} (h : x.afterAck = some n) : n ≠ .dSend := by
  rcases afterAck_some h with ⟨-, rfl⟩ | ⟨-, rfl⟩ | ⟨-, rfl⟩ <;> decide

theorem stores_dataFrame {q : Byte} {p : ByteStr}
    (hbuf : t.frameBuf = withChecksum (dataBody q p) ++ u.frameBuf.drop (5 + p.length))
    (hlen : t.frameLen = 5 + p.length) : Stores (withChecksum (dataBody q p)) u t := by
  rw [← dataFrame_length q p] at hbuf hlen
  exact ⟨hbuf, hlen⟩

/-- A transition that takes a chunk of the source (43_transfer.md R124). -/
structure ChunkTaken (u t : State) (bytes : ByteStr) : Prop where
  st : u.st = .dRead
  st_next : t.st = .dSend
  remaining_ne : u.remaining ≠ 0
  length : bytes.length = chunkLen u.remaining
  frameNumber : t.frameNumber = u.frameNumber + 1
  remaining : t.remaining = u.remaining - BitVec.ofNat 32 (chunkLen u.remaining)
  frame : t.frame = withChecksum (dataBody (lo8 t.frameNumber) bytes)
  chunks : chunks t = chunks u ++ [bytes]

/-- A transition that takes none. -/
structure NoChunkTaken (u t : State) : Prop where
  st_next : t.st ≠ .dSend
  frameNumber : t.frameNumber = u.frameNumber
  remaining : t.remaining = u.remaining
  chunks : chunks t = chunks u

/-- Events that deliver no chunk leave the chunks as they are. -/
theorem chunks_of_no_chunk (es : List Event) (h : t.trace = u.trace ++ es) (hb : ∀ e ∈ es, e.begins = false)
    (hc : es.filterMap chunkOf = []) : chunks t = chunks u := by
  rw [chunks_append es h hb, hc, List.append_nil]

theorem Stepped.chunk_cases (h : Stepped u t) : NoChunkTaken u t ∨ ∃ bytes, ChunkTaken u t bytes := by
  cases h with
  | rest h => exact .inl ⟨isRest_ne_dSend h, rfl, rfl, rfl⟩
  | openOk | openFault =>
    exact .inl ⟨by simp, by simp, by simp, chunks_of_no_chunk _ rfl (by simp [Event.begins]) rfl⟩
  | sendOk w hw =>
    exact .inl ⟨afterSend_ne_dSend hw, by simp, by simp, chunks_of_no_chunk _ rfl (by simp [Event.begins]) rfl⟩
  | waitOk n hn =>
    exact .inl ⟨afterAck_ne_dSend hn, by simp, by simp, chunks_of_no_chunk _ rfl (by simp [Event.begins]) rfl⟩
  | sendFault | waitFault =>
    exact .inl ⟨by simp, by simp, by simp, chunks_of_no_chunk _ rfl (by simp [Event.begins]) rfl⟩
  | chunkEnd | noReport => exact .inl ⟨by simp, rfl, rfl, rfl⟩
  | chunkData h hr bytes ha hl =>
    exact .inr ⟨bytes, h, rfl, hr, hl, rfl, rfl, (stores_dataFrame rfl rfl).frame,
      chunks_append [.read _ (.data bytes)] rfl (by simp [Event.begins])⟩
  | chunkFault h hr a ha he =>
    exact .inl ⟨by simp, by simp, by simp,
      chunks_of_no_chunk _ rfl (by simp [Event.begins]) (by rcases he with rfl | rfl <;> rfl)⟩
  | report | finalTerm | finalDone =>
    exact .inl ⟨by simp, rfl, rfl, chunks_of_no_chunk _ rfl (by simp [Event.begins]) rfl⟩

/-- A transition stores a frame, in the three states where a builder runs, or leaves the buffer as it is
(20_memory.md R67). -/
theorem Stepped.buffer_cases (h : Stepped u t) : (t.frameBuf = u.frameBuf ∧ t.frameLen = u.frameLen) ∨
    ∃ f, f.length ≤ 1029 ∧ Stores f u t ∧ u.st ∈ [St.opening, .dRead, .fReport] := by
  cases h with
  | openOk hs => exact .inr ⟨announceFrame u.reqLength u.reqAddress, by simp [announceFrame], ⟨rfl, rfl⟩, by simp [hs]⟩
  | chunkData hs hr bytes ha hl =>
    have hle : bytes.length ≤ 1024 := hl ▸ (chunkLen_bounds u.remaining).1
    exact .inr ⟨_, by rw [dataFrame_length]; omega, stores_dataFrame rfl rfl, by simp [hs]⟩
  | finalTerm hs => exact .inr ⟨terminateFrame (lo8 (u.frameNumber + 1)), by simp, ⟨rfl, rfl⟩, by simp [hs]⟩
  | _ => exact .inl (by simp)

/-- The buffer keeps its 1029 bytes (10_state.md R26). -/
theorem Stepped.keeps_buffer (h : Stepped u t) (hbuf : u.frameBuf.length = 1029) (hlen : u.frameLen ≤ 1029) :
    t.frameBuf.length = 1029 ∧ t.frameLen ≤ 1029 := by
  rcases h.buffer_cases with ⟨hb, hl⟩ | ⟨f, hf, hst, -⟩
  · exact ⟨hb ▸ hbuf, hl ▸ hlen⟩
  · exact ⟨hst.bufLength hbuf hf, hst.frameLen ▸ hf⟩

/-- A fault code stands exactly in FAULT (10_state.md R27). -/
theorem Stepped.faultCode_iff (h : Stepped u t) (hu : u.faultCode = 0 ↔ u.st ≠ .fault) :
    t.faultCode = 0 ↔ t.st ≠ .fault := by
  cases h with
  | rest => exact hu
  | openFault => simp
  | sendFault w hw c hc => rcases hc with ⟨-, rfl⟩ | ⟨-, rfl⟩ <;> simp
  | waitFault n hn c v hc => rcases hc with ⟨-, -, rfl⟩ | ⟨-, -, rfl⟩ | ⟨-, -, rfl⟩ <;> simp
  | chunkFault => simp
  | sendOk w hw =>
    have hne : u.st ≠ .fault := fun hf => by simp [hf, St.afterSend] at hw
    exact iff_of_true (u.afterTx_faultCode.trans (hu.mpr hne)) (afterSend_ne_fault hw)
  | waitOk n hn =>
    have hne : u.st ≠ .fault := fun hf => by simp [hf, St.afterAck] at hn
    exact iff_of_true (u.afterRx_faultCode.trans (hu.mpr hne)) (afterAck_ne_fault hn)
  | openOk hs | chunkEnd hs | chunkData hs | report hs | noReport hs | finalTerm hs | finalDone hs =>
    have hcode := hu.mpr (by simp [hs])
    simp [hcode]

/-- The states between a chunk and the next. -/
def St.inData (x : St) : Prop := x = .dSend ∨ x = .dWait ∨ x = .dReport

/-- Those states are entered by taking a chunk, and else only from each other. -/
theorem Stepped.inData_from (h : Stepped u t) (hne : t.st ≠ .dSend) (ht : t.st.inData) : u.st.inData := by
  cases h with
  | rest => exact ht
  | sendOk w hw =>
    rcases afterSend_some hw with ⟨-, rfl⟩ | ⟨hu, -⟩ | ⟨-, rfl⟩
    · simp [St.inData] at ht
    · exact .inl hu
    · simp [St.inData] at ht
  | waitOk n hn =>
    rcases afterAck_some hn with ⟨-, rfl⟩ | ⟨hu, -⟩ | ⟨-, rfl⟩
    · simp [St.inData] at ht
    · exact .inr (.inl hu)
    · simp [St.inData] at ht
  | chunkData => exact absurd rfl hne
  | _ => simp [St.inData] at ht

end Transition

/-! ### The counters as numbers -/

/-- Settles O50: the frame number is the ceiling of a part of the length, whose own ceiling is at most `2^22`. -/
theorem noRegisterOverflows : Obligations.NoRegisterOverflows := by
  intro s h
  have hcount := h.countOfLength
  have hnumber := h.numberOfRead
  have hlen := s.reqLength.isLt
  have hsucc : (s.frameNumber + 1).toNat = s.frameNumber.toNat + 1 := by
    simp only [BitVec.toNat_add, BitVec.ofNat_eq_ofNat, BitVec.toNat_ofNat]
    omega
  omega

theorem Inv.frameNumber_le_frameCount {s : State} (h : Inv s) : s.frameNumber.toNat ≤ s.frameCount.toNat :=
  (noRegisterOverflows s h).1

theorem Inv.frameNumber_succ {s : State} (h : Inv s) : (s.frameNumber + 1).toNat = s.frameNumber.toNat + 1 := by
  obtain ⟨-, -, -, -, hsucc⟩ := noRegisterOverflows s h
  exact hsucc

theorem sub_chunkLen_toNat (r : Word) :
    (r - BitVec.ofNat 32 (chunkLen r)).toNat = r.toNat - chunkLen r := by
  have hbound := chunkLen_bounds r
  have hlt := r.isLt
  rw [BitVec.toNat_sub, BitVec.toNat_ofNat]
  omega

theorem toNat_pos_of_ne_zero {r : Word} (h : r ≠ 0) : 0 < r.toNat :=
  Nat.pos_of_ne_zero fun h0 => h (BitVec.eq_of_toNat_eq h0)

theorem chunkLen_eq (r : Word) : chunkLen r = min 1024 r.toNat := rfl

/-! ### The register invariants are inductive -/

/-- A chunk moves the counters from one frame boundary to the next, or to the end (10_state.md R40(a), (b), (e)). -/
theorem Inv.counters_of_chunkTaken {u t : State} {bytes : ByteStr} (h : Inv u) (hc : ChunkTaken u t bytes) :
    t.remaining.toNat ≤ u.reqLength.toNat ∧
    t.frameNumber.toNat = (u.reqLength.toNat - t.remaining.toNat + 1023) / 1024 ∧
    (t.remaining = 0 ∨ 1024 ∣ u.reqLength.toNat - t.remaining.toNat) := by
  have hpos := toNat_pos_of_ne_zero hc.remaining_ne
  have hbound := h.remainingBound
  have hnumber := h.numberOfRead
  have hwhole := h.wholeChunks.resolve_left hc.remaining_ne
  have hzero : t.remaining = 0 ↔ t.remaining.toNat = 0 := BitVec.toNat_inj.symm
  rw [hzero, hc.frameNumber, h.frameNumber_succ, hc.remaining, sub_chunkLen_toNat, chunkLen_eq]
  omega

theorem Inv.of_stepped {u t : State} (h : Inv u) (hs : Stepped u t) : Inv t := by
  obtain ⟨hreq, -, -, hfc⟩ := hs.keeps_request
  obtain ⟨hbuf, hlen⟩ := hs.keeps_buffer h.bufLength h.frameLenBound
  have hfault := hs.faultCode_iff h.faultCodeIff
  have hcount : t.frameCount.toNat = (t.reqLength.toNat + 1023) / 1024 := by rw [hfc, hreq]; exact h.countOfLength
  rcases hs.chunk_cases with hn | ⟨bytes, hc⟩
  · have hnumbered : t.st.inData → 1 ≤ t.frameNumber.toNat := fun ht =>
      hn.frameNumber ▸ h.numbered (hs.inData_from hn.st_next ht)
    have hnumber := h.numberOfRead
    have hbound := h.remainingBound
    have hwhole := h.wholeChunks
    rw [← hreq, ← hn.remaining] at hbound hwhole hnumber
    rw [← hn.frameNumber] at hnumber
    exact ⟨hbuf, hlen, hbound, hcount, hnumber, hwhole, hnumbered, hfault⟩
  · obtain ⟨hbound, hnumber, hwhole⟩ := h.counters_of_chunkTaken hc
    have hpos : 1 ≤ t.frameNumber.toNat := by rw [hc.frameNumber, h.frameNumber_succ]; omega
    rw [← hreq] at hbound hnumber hwhole
    exact ⟨hbuf, hlen, hbound, hcount, hnumber, hwhole, fun _ => hpos, hfault⟩

/-- The request just latched: nothing read, everything remaining. -/
theorem Inv.latch {u : State} (h : Inv u) (len addr : Word) (term : Bool) : Inv (u.latch len addr term) where
  bufLength := h.bufLength
  frameLenBound := Nat.zero_le _
  remainingBound := le_refl _
  countOfLength := frameCountOf_toNat len
  numberOfRead := by simp
  wholeChunks := .inr (by simp)
  numbered := by simp
  faultCodeIff := by simp

theorem inv_resetRegisters (u : State) : Inv u.resetRegisters where
  bufLength := by simp
  frameLenBound := by simp
  remainingBound := by simp
  countOfLength := by simp
  numberOfRead := by simp
  wholeChunks := by simp
  numbered := by simp
  faultCodeIff := by simp

/-- No invariant speaks of the host port. -/
theorem Inv.afterHost {s : State} (h : Inv s) : Inv s.afterHost :=
  ⟨h.bufLength, h.frameLenBound, h.remainingBound, h.countOfLength, h.numberOfRead, h.wholeChunks, h.numbered,
    h.faultCodeIff⟩

/-- Settles O48: each register at its reset value. -/
theorem resetHasTheRegisterInvariants : Obligations.ResetHasTheRegisterInvariants where
  bufLength := List.length_replicate
  frameLenBound := Nat.zero_le _
  remainingBound := le_refl _
  countOfLength := rfl
  numberOfRead := rfl
  wholeChunks := .inl rfl
  numbered := by simp [State.reset]
  faultCodeIff := by simp [State.reset]

/-- Settles O49: a command starts the counters anew or does nothing; a transition keeps the invariants. -/
theorem stepKeepsTheRegisterInvariants : Obligations.StepKeepsTheRegisterInvariants := by
  intro s t h hstep
  rcases step_cases hstep with ⟨c, -, hc⟩ | ⟨-, hs⟩
  · cases hc with
    | start len addr term => exact h.afterHost.latch len addr _
    | startBusy => exact h.afterHost
    | reset => exact inv_resetRegisters _
  · exact h.afterHost.of_stepped hs

/-! ### The sequence byte and the percentage -/

/-- Settles O36: the chunk's frame carries the low byte of the new frame number, which has not wrapped. -/
theorem sequenceByteWrapsAndTheCounterDoesNot : Obligations.SequenceByteWrapsAndTheCounterDoesNot := by
  intro s t h hs hr ht hst
  have hstep : Stepped s t := stepped_of_engineStep ((engineStep_dRead hs).trans ht)
  rcases hstep.chunk_cases with hn | ⟨bytes, hc⟩
  · exact absurd hst hn.st_next
  · have hnumber : t.frameNumber.toNat = s.frameNumber.toNat + 1 := hc.frameNumber ▸ h.frameNumber_succ
    rw [hc.frame]
    exact ⟨hnumber, lo8 t.frameNumber, cpl8 (lo8 t.frameNumber), rfl, rfl, rfl, lo8_toNat _, toNat_add_cpl8 _⟩

theorem pct_le_hundred {fn fc : Nat} (h : fn ≤ fc) : pct fn fc ≤ 100 := by
  rcases Nat.eq_zero_or_pos fc with rfl | hpos
  · exact le_refl _
  · rw [pct_of_pos hpos]
    exact Nat.div_le_of_le_mul (by omega)

theorem pct_mono {fn fn' : Nat} (fc : Nat) (h : fn ≤ fn') : pct fn fc ≤ pct fn' fc := by
  rcases Nat.eq_zero_or_pos fc with rfl | hpos
  · exact le_refl _
  · rw [pct_of_pos hpos, pct_of_pos hpos]
    exact Nat.div_le_div_right (Nat.mul_le_mul_right 100 h)

theorem pct_eq_hundred_iff {fn fc : Nat} (hpos : 0 < fc) (h : fn ≤ fc) : pct fn fc = 100 ↔ fn = fc := by
  rw [pct_of_pos hpos, Nat.div_eq_iff hpos]
  omega

/-- Settles O37: the division is monotone, and reaches 100 only with its denominator. -/
theorem percentageIsBoundedAndMonotone : Obligations.PercentageIsBoundedAndMonotone := fun _ _ _ h h' =>
  ⟨pct_mono _ h, pct_le_hundred h', fun hpos => pct_eq_hundred_iff hpos h', pct_zero _⟩

/-! ### Which steps write the request and the frame buffer -/

/-- Settles O46: neither a transition nor a START that is not accepted writes the request. -/
theorem requestIsImmutableDuringATransfer : Obligations.RequestIsImmutableDuringATransfer := by
  intro s t hcmd hstep
  rcases step_cases hstep with ⟨c, hc, heff⟩ | ⟨-, hs⟩
  · rcases hcmd with hnone | ⟨hbusy, hreset⟩
    · cases hc.symm.trans hnone
    · cases heff with
      | start _ _ _ hrest => exact absurd ((mem_restStates_iff _).mpr hrest) hbusy
      | startBusy => exact ⟨rfl, rfl, rfl, rfl⟩
      | reset => exact absurd hc hreset
  · exact hs.keeps_request

/-- Settles O47: a frame is stored only in those three states, and nothing is written above it. -/
theorem onlyTheBuildersWriteTheFrameBuffer : Obligations.OnlyTheBuildersWriteTheFrameBuffer := by
  intro s t hc hstep
  rcases (stepped_of_step hc hstep).buffer_cases with ⟨hbuf, hlen⟩ | ⟨f, -, hstores, hst⟩
  · exact ⟨fun _ => ⟨hbuf, hlen⟩, fun k _ => congrArg (·[k]?) hbuf⟩
  · exact ⟨fun hnot => absurd hst hnot, hstores.above⟩

end Sys2Proof.Machine
end

section
/-! The invariants read from the trace (10_state.md R40(a), (e); 20_memory.md R61 to R67; 43_transfer.md R139): the
chunk accounting, the frame being sent, the order of the wire events and the order of the reports. -/

namespace Sys2Proof.Machine

/-! ### The chunk accounting -/

theorem ChunkInv.of_stepped {u t : State} (hinv : Inv u) (h : ChunkInv u) (hs : Stepped u t) : ChunkInv t := by
  obtain ⟨hreq, -, -, -⟩ := hs.keeps_request
  rcases hs.chunk_cases with hn | ⟨bytes, hc⟩
  · obtain ⟨hsum, hcount, hfull, hlast⟩ := h
    rw [← hn.chunks] at hsum hcount hfull hlast
    rw [← hn.remaining] at hsum hlast
    rw [← hreq] at hsum
    exact ⟨hsum, hn.frameNumber ▸ hcount, hfull, hlast⟩
  · have hfull := h.lastFull hc.remaining_ne
    have hbound := hinv.remainingBound
    have hrem : t.remaining.toNat = u.remaining.toNat - chunkLen u.remaining := by
      rw [hc.remaining, sub_chunkLen_toNat]
    have hlen := hc.length
    rw [chunkLen_eq] at hlen hrem
    refine ⟨?_, ?_, ?_, fun hne c hmem => ?_⟩
    · rw [hc.chunks, hreq, List.map_append, List.sum_append, h.sum, List.map_singleton, List.sum_singleton]
      omega
    · rw [hc.chunks, List.length_append, h.count, hc.frameNumber, hinv.frameNumber_succ, List.length_singleton]
    · rwa [hc.chunks, List.dropLast_concat]
    · have hpos := toNat_pos_of_ne_zero hne
      rw [hc.chunks, List.mem_append, List.mem_singleton] at hmem
      rcases hmem with hold | rfl
      · exact hfull c hold
      · omega

/-- A record just begun has no chunk; its counters have nothing read. -/
theorem chunkInv_of_begun {t : State} (hchunks : chunks t = []) (hrem : t.remaining = t.reqLength)
    (hnumber : t.frameNumber = 0) : ChunkInv t := by
  refine ⟨?_, ?_, ?_, fun _ => ?_⟩ <;> simp [hchunks, hrem, hnumber]

/-- Settles O51: a chunk adds its bytes and its one to the account; a command begins the account anew. -/
theorem stepKeepsTheChunkAccounting : Obligations.StepKeepsTheChunkAccounting := by
  intro s t hinv h hstep
  rcases step_cases hstep with ⟨c, -, hc⟩ | ⟨-, hs⟩
  · cases hc with
    | start => exact chunkInv_of_begun (chunks_of_begins rfl rfl) rfl rfl
    | startBusy => exact ⟨h.sum, h.count, h.full, h.lastFull⟩
    | reset => exact chunkInv_of_begun (chunks_of_begins rfl rfl) rfl rfl
  · exact ChunkInv.of_stepped hinv.afterHost ⟨h.sum, h.count, h.full, h.lastFull⟩ hs

/-! ### The frame being sent -/

/-- The states in which a frame is being sent or acknowledged (20_memory.md R67). -/
def St.sending (x : St) : Bool := x.afterSend.isSome || x.afterAck.isSome

theorem frameInv_of_not_sending {t : State} (h : t.st.sending = false) : FrameInv t := by
  cases hs : t.st <;> simp [hs, St.sending, St.afterSend, St.afterAck] at h <;> simp [FrameInv, hs]

theorem frameInv_of_chunkTaken {u t : State} {bytes : ByteStr} (h : ChunkTaken u t bytes) : FrameInv t := by
  have hlen : bytes.length ≤ 1024 := h.length ▸ (chunkLen_bounds u.remaining).1
  refine ⟨by simp [h.st_next], fun _ => ⟨bytes, ?_, hlen, h.frame⟩, by simp [h.st_next]⟩
  rw [h.chunks, List.getLast?_concat]

/-- The frame written stays in the buffer until it is acknowledged. -/
theorem FrameInv.of_sent {u : State} (h : FrameInv u) {w : St} (hw : u.st.afterSend = some w) (a : WriteAnswer) :
    FrameInv { u.afterTx with st := w, trace := u.trace ++ [.tx u.frame a] } := by
  obtain ⟨hann, hdata, hterm⟩ := h
  have hframe : State.frame { u.afterTx with st := w, trace := u.trace ++ [.tx u.frame a] } = u.frame := by
    simp [State.frame]
  have hchunks : chunks { u.afterTx with st := w, trace := u.trace ++ [.tx u.frame a] } = chunks u :=
    chunks_of_no_chunk _ rfl (by simp [Event.begins]) rfl
  unfold FrameInv
  rw [hframe, hchunks]
  rcases afterSend_some hw with ⟨hu, rfl⟩ | ⟨hu, rfl⟩ | ⟨hu, rfl⟩
  · simpa using hann (.inl hu)
  · simpa using hdata (.inl hu)
  · simpa using hterm (.inl hu)

theorem FrameInv.of_stepped {u t : State} (h : FrameInv u) (hs : Stepped u t) : FrameInv t := by
  rcases hs.chunk_cases with hn | ⟨bytes, hc⟩
  · cases hs with
    | rest => exact h
    | openOk =>
      have hstores : Stores (announceFrame u.reqLength u.reqAddress) u _ := ⟨rfl, rfl⟩
      exact ⟨fun _ => hstores.frame.trans (by simp [announceFrame]), by simp, by simp⟩
    | sendOk w hw => exact h.of_sent hw .ok
    | waitOk n hw =>
      rcases afterAck_some hw with ⟨-, rfl⟩ | ⟨-, rfl⟩ | ⟨-, rfl⟩ <;> exact frameInv_of_not_sending rfl
    | finalTerm =>
      have hstores : Stores (terminateFrame (lo8 (u.frameNumber + 1))) u _ := ⟨rfl, rfl⟩
      exact ⟨by simp, by simp, fun _ => hstores.frame⟩
    | chunkData => exact absurd rfl hn.st_next
    | _ => exact frameInv_of_not_sending rfl
  · exact frameInv_of_chunkTaken hc

/-- Settles O52: a builder's frame is what its state says; it stays until acknowledged; elsewhere nothing is claimed. -/
theorem stepKeepsTheFrameBeingSent : Obligations.StepKeepsTheFrameBeingSent := by
  intro s t h hstep
  rcases step_cases hstep with ⟨c, -, hc⟩ | ⟨-, hs⟩
  · cases hc with
    | start => exact frameInv_of_not_sending rfl
    | startBusy => exact h
    | reset => exact frameInv_of_not_sending rfl
  · exact FrameInv.of_stepped (u := s.afterHost) h hs

/-! ### Every frame written is well formed -/

/-- What `FrameInv` says of the buffer in an `X_SEND`: it holds a frame, well formed and no longer than R10 allows. -/
theorem FrameInv.decodes {s : State} (h : FrameInv s) {w : St} (hw : s.st.afterSend = some w) :
    ∃ i, decode .transmit s.frame = .ok i ∧ i.wf = true ∧ s.frame.length ≤ 1029 := by
  obtain ⟨hann, hdata, hterm⟩ := h
  rcases afterSend_some hw with ⟨hs, -⟩ | ⟨hs, -⟩ | ⟨hs, -⟩
  · rw [hann (.inl hs)]
    exact ⟨_, decode_announceFrame _ _, wf_frameAnnounce _ _, by simp⟩
  · obtain ⟨bytes, -, hlen, hframe⟩ := hdata (.inl hs)
    rw [hframe]
    exact ⟨_, decode_dataFrame _ hlen, wf_frameData _ hlen, by rw [dataFrame_length]; omega⟩
  · rw [hterm (.inl hs)]
    exact ⟨_, decode_terminateFrame _, wf_frameTerminate _, by simp⟩

/-- The only transition that writes is an `X_SEND`'s, and it writes the frame in the buffer. -/
theorem Stepped.sends_of_tx {u t : State} (h : Stepped u t) {es : List Event} (htrace : t.trace = u.trace ++ es)
    {f : ByteStr} {a : WriteAnswer} (hmem : .tx f a ∈ es) : f = u.frame ∧ ∃ w, u.st.afterSend = some w := by
  cases h with
  | sendOk w hw | sendFault w hw =>
    rw [← List.append_cancel_left htrace, List.mem_singleton] at hmem
    cases hmem
    exact ⟨rfl, w, hw⟩
  | rest | chunkEnd | noReport => simp [List.self_eq_append_right.mp htrace] at hmem
  | _ => simp [← List.append_cancel_left htrace] at hmem

/-- Settles O53: a step writes only the frame in the buffer, and only in an `X_SEND`. -/
theorem everyFrameWrittenIsWellFormed : Obligations.EveryFrameWrittenIsWellFormed := by
  intro s t es f a h hstep htrace hmem
  rcases step_cases hstep with ⟨c, -, hc⟩ | ⟨-, hs⟩
  · have hes : es = [] ∨ ∃ e, es = [e] ∧ e.begins = true := by
      cases hc with
      | start => exact .inr ⟨_, (List.append_cancel_left htrace).symm, rfl⟩
      | startBusy => exact .inl (by simpa using htrace)
      | reset => exact .inr ⟨_, (List.append_cancel_left htrace).symm, rfl⟩
    rcases hes with rfl | ⟨e, rfl, he⟩
    · cases hmem
    · rw [List.mem_singleton] at hmem
      rw [← hmem] at he
      cases he
  · obtain ⟨rfl, w, hw⟩ := hs.sends_of_tx htrace hmem
    exact h.decodes hw

/-! ### The order of the wire events -/

theorem WireInv.append {s t : State} (h : WireInv s) (es : List Event) (ht : t.trace = s.trace ++ es)
    (hes : Wire.run (wireOf s.st) es = some (wireOf t.st)) : WireInv t := by
  rw [WireInv, ht, Wire.run_append, h]
  exact hes

theorem WireInv.append_one {s t : State} (h : WireInv s) (e : Event) (ht : t.trace = s.trace ++ [e])
    (he : (wireOf s.st).next e = some (wireOf t.st)) : WireInv t :=
  h.append [e] ht (by rw [Wire.run, List.foldlM_cons, he]; rfl)

theorem wireOf_afterSend {x w : St} (h : x.afterSend = some w) : wireOf x = .clear ∧ wireOf w = .awaiting := by
  rcases afterSend_some h with ⟨rfl, rfl⟩ | ⟨rfl, rfl⟩ | ⟨rfl, rfl⟩ <;> exact ⟨rfl, rfl⟩

theorem wireOf_afterAck {x n : St} (h : x.afterAck = some n) : wireOf x = .awaiting ∧ wireOf n = .clear := by
  rcases afterAck_some h with ⟨rfl, rfl⟩ | ⟨rfl, rfl⟩ | ⟨rfl, rfl⟩ <;> exact ⟨rfl, rfl⟩

/-- RESET may come at every position a state can be at. -/
theorem Wire.next_reset (x : St) : (wireOf x).next .reset = some .clear := by cases x <;> rfl

/-- START may come at rest: nothing is owed there. -/
theorem Wire.next_start {x : St} (h : x.isRest = true) (len addr : Word) (term : Bool) :
    (wireOf x).next (.start len addr term) = some .clear := by
  rcases isRest_cases h with rfl | rfl | rfl <;> rfl

theorem WireInv.of_stepped {u t : State} (h : WireInv u) (hs : Stepped u t) : WireInv t := by
  cases hs with
  | rest => exact h
  | sendOk w hw ha =>
    obtain ⟨hclear, hawaiting⟩ := wireOf_afterSend hw
    exact h.append_one _ rfl (by rw [hclear, hawaiting]; rfl)
  | sendFault w hw c hc =>
    obtain ⟨hclear, -⟩ := wireOf_afterSend hw
    refine h.append_one _ rfl ?_
    rcases hc with ⟨ha, -⟩ | ⟨ha, -⟩ <;> rw [hclear, ha] <;> rfl
  | waitOk n hn =>
    obtain ⟨hawaiting, hclear⟩ := wireOf_afterAck hn
    exact h.append _ rfl (by rw [hclear, hawaiting]; rfl)
  | waitFault n hn c v hc =>
    obtain ⟨hawaiting, -⟩ := wireOf_afterAck hn
    exact h.append_one _ rfl (by rw [hawaiting]; exact congrArg some (if_neg (rxAnswer_ne_ackOk hc)))
  | chunkEnd hu | noReport hu => exact h.append [] (List.append_nil _).symm (by rw [hu]; rfl)
  | chunkFault hu hr a ha he =>
    refine h.append_one _ rfl ?_
    rcases he with rfl | rfl <;> rw [hu] <;> rfl
  | openOk hu | openFault hu | chunkData hu | report hu | finalTerm hu | finalDone hu =>
    exact h.append_one _ rfl (by rw [hu]; rfl)

/-- Settles O54: each transition's events lead from its state's position to the next state's. -/
theorem stepKeepsTheOrderOfWireEvents : Obligations.StepKeepsTheOrderOfWireEvents := by
  intro s t h hstep
  rcases step_cases hstep with ⟨c, -, hc⟩ | ⟨-, hs⟩
  · cases hc with
    | start len addr tm hrest => exact h.append_one _ rfl (Wire.next_start hrest len addr _)
    | startBusy => exact h
    | reset => exact h.append_one _ rfl (Wire.next_reset s.st)
  · exact WireInv.of_stepped (u := s.afterHost) h hs

end Sys2Proof.Machine
end

section
/-! The order of the reports (43_transfer.md R128, R139): what a transition appends to them, and that the percentages
stay in order because they follow the frame number. -/

namespace Sys2Proof.Machine

/-- The states of a transfer before its final report. -/
def St.beforeFinal (x : St) : Prop :=
  x = .opening ∨ x = .aSend ∨ x = .aWait ∨ x = .dRead ∨ x = .dSend ∨ x = .dWait ∨ x = .dReport

/-- The states of a transfer after its final report. -/
def St.afterFinal (x : St) : Prop := x = .tSend ∨ x = .tWait ∨ x = .done

/-- A transition that reports nothing, and does not pass the final report. -/
structure Silent (u t : State) : Prop where
  reports : reports t = reports u
  beforeFinal : t.st.beforeFinal → u.st.beforeFinal
  afterFinal : t.st.afterFinal → u.st.afterFinal

theorem reports_of_no_report {u t : State} (es : List Event) (h : t.trace = u.trace ++ es)
    (hb : ∀ e ∈ es, e.begins = false) (hr : es.filterMap reportOf = []) : reports t = reports u := by
  rw [reports_append es h hb, hr, List.append_nil]

/-- FAULT is neither before nor after the final report: entering it claims nothing. -/
theorem silent_of_fault {u t : State} (e : Event) (h : t.trace = u.trace ++ [e]) (hb : e.begins = false)
    (hr : reportOf e = none) (ht : t.st = .fault) : Silent u t :=
  ⟨reports_of_no_report [e] h (by simp [hb]) (by simp [hr]), by simp [ht, St.beforeFinal], by simp [ht, St.afterFinal]⟩

/-- Everything a transition can do to the reports. -/
theorem Stepped.report_cases {u t : State} (h : Stepped u t) :
    Silent u t ∨
    (t.st = .dRead ∧ u.st = .dReport ∧ t.frameNumber = u.frameNumber ∧
      reports t = reports u ++ [pct u.frameNumber.toNat u.frameCount.toNat]) ∨
    (t.st.afterFinal ∧ reports t = reports u ++ [100]) := by
  cases h with
  | rest => exact .inl ⟨rfl, id, id⟩
  | openOk hu =>
    exact .inl ⟨reports_of_no_report _ rfl (by simp [Event.begins]) rfl, fun _ => .inl hu, by simp [St.afterFinal]⟩
  | sendOk w hw =>
    refine .inl ⟨reports_of_no_report _ rfl (by simp [Event.begins]) rfl, ?_, ?_⟩ <;>
      rcases afterSend_some hw with ⟨hu, rfl⟩ | ⟨hu, rfl⟩ | ⟨hu, rfl⟩ <;> simp [St.beforeFinal, St.afterFinal, hu]
  | waitOk n hn =>
    refine .inl ⟨reports_of_no_report _ rfl (by simp [Event.begins]) rfl, ?_, ?_⟩ <;>
      rcases afterAck_some hn with ⟨hu, rfl⟩ | ⟨hu, rfl⟩ | ⟨hu, rfl⟩ <;> simp [St.beforeFinal, St.afterFinal, hu]
  | chunkEnd => exact .inl ⟨rfl, by simp [St.beforeFinal], by simp [St.afterFinal]⟩
  | chunkData hu =>
    exact .inl ⟨reports_of_no_report [.read _ (.data _)] rfl (by simp [Event.begins]) rfl,
      fun _ => by simp [St.beforeFinal, hu], by simp [St.afterFinal]⟩
  | noReport hu => exact .inl ⟨rfl, fun _ => by simp [St.beforeFinal, hu], by simp [St.afterFinal]⟩
  | report hu => exact .inr (.inl ⟨rfl, hu, rfl, reports_append [.progress _] rfl (by simp [Event.begins])⟩)
  | finalTerm => exact .inr (.inr ⟨.inl rfl, reports_append [.progress 100] rfl (by simp [Event.begins])⟩)
  | finalDone => exact .inr (.inr ⟨.inr (.inr rfl), reports_append [.progress 100] rfl (by simp [Event.begins])⟩)
  | openFault | sendFault | waitFault | chunkFault => exact .inl (silent_of_fault _ rfl rfl rfl rfl)

/-- A percentage is at most the last one it was computed for: the arithmetic of R128 with its guard. -/
theorem le_pct {p fn fc : Nat} (hbound : p ≤ 100) (h : p * fc ≤ fn * 100) : p ≤ pct fn fc := by
  rcases Nat.eq_zero_or_pos fc with rfl | hpos
  · exact hbound
  · rw [pct_of_pos hpos]
    exact (Nat.le_div_iff_mul_le hpos).mpr h

theorem pct_mul_le (fn fc : Nat) : pct fn fc * fc ≤ fn * 100 := by
  rcases Nat.eq_zero_or_pos fc with rfl | hpos
  · simp
  · rw [pct_of_pos hpos]
    exact Nat.div_mul_le_self _ _

/-- Neither counter goes back: the frame number only grows. -/
theorem Stepped.frameNumber_le {u t : State} (h : Stepped u t) (hinv : Inv u) :
    u.frameNumber.toNat ≤ t.frameNumber.toNat := by
  rcases h.chunk_cases with hn | ⟨bytes, hc⟩
  · rw [hn.frameNumber]
  · rw [hc.frameNumber, hinv.frameNumber_succ]
    exact Nat.le_succ _

/-- A report that no earlier one exceeds keeps the reports in order. -/
theorem reports_sorted_snoc {ps : List Nat} {p : Nat} (h : ps.Pairwise (· ≤ ·)) (hp : ∀ q ∈ ps, q ≤ p) :
    (ps ++ [p]).Pairwise (· ≤ ·) := by
  rw [List.pairwise_append]
  exact ⟨h, List.pairwise_singleton _ _, fun q hq r hr => (List.mem_singleton.mp hr) ▸ hp q hq⟩

theorem forall_mem_snoc {ps : List Nat} {p : Nat} {P : Nat → Prop} (h : ∀ q ∈ ps, P q) (hp : P p) :
    ∀ q ∈ ps ++ [p], P q := by
  simpa [or_imp, forall_and] using ⟨h, hp⟩

theorem ReportInv.of_stepped {u t : State} (hinv : Inv u) (h : ReportInv u) (hs : Stepped u t) : ReportInv t := by
  obtain ⟨-, -, -, hcount⟩ := hs.keeps_request
  have hnumber := hs.frameNumber_le hinv
  rcases hs.report_cases with hsil | ⟨ht, hu, hfn, hrep⟩ | ⟨ht, hrep⟩
  · refine ⟨hsil.reports ▸ h.sorted, hsil.reports ▸ h.bound, fun ht p hp => ?_, fun ht => ?_⟩
    · have hp' := h.soFar (hsil.beforeFinal ht) p (hsil.reports ▸ hp)
      rw [hcount]
      omega
    · rw [hsil.reports]
      exact h.final (hsil.afterFinal ht)
  · have hsofar := h.soFar (by simp [hu])
    have hle : ∀ p ∈ reports u, p ≤ pct u.frameNumber.toNat u.frameCount.toNat := fun p hp =>
      le_pct (h.bound p hp) (hsofar p hp)
    refine ⟨hrep ▸ reports_sorted_snoc h.sorted hle, hrep ▸ forall_mem_snoc h.bound ?_, fun _ => ?_, by simp [ht]⟩
    · exact pct_le_hundred hinv.frameNumber_le_frameCount
    · rw [hrep, hcount, hfn]
      exact forall_mem_snoc hsofar (pct_mul_le _ _)
  · refine ⟨hrep ▸ reports_sorted_snoc h.sorted h.bound, hrep ▸ forall_mem_snoc h.bound (le_refl _), fun hb => ?_,
      fun _ => by rw [hrep, List.getLast?_concat]⟩
    rcases ht with ht | ht | ht <;> simp [ht] at hb

/-- A record just begun has no report. -/
theorem reportInv_of_begun {t : State} (h : reports t = []) (ht : ¬ t.st.afterFinal) : ReportInv t :=
  ⟨by simp [h], by simp [h], by simp [h], fun hf => absurd hf ht⟩

/-- Settles O55: each report is above all earlier ones, because the frame number has only grown. -/
theorem stepKeepsTheReportsInOrder : Obligations.StepKeepsTheReportsInOrder := by
  intro s t hinv h hstep
  have h' : ReportInv s.afterHost := ⟨h.sorted, h.bound, h.soFar, h.final⟩
  rcases step_cases hstep with ⟨c, -, hc⟩ | ⟨-, hs⟩
  · cases hc with
    | start => exact reportInv_of_begun (reports_of_begins rfl rfl) (by simp [St.afterFinal])
    | startBusy => exact h'
    | reset => exact reportInv_of_begun (reports_of_begins rfl rfl) (by simp [St.afterFinal])
  · exact ReportInv.of_stepped hinv.afterHost h' hs

/-- Settles O56: the reset state has an empty trace, sends nothing and owes nothing. -/
theorem resetHasTheTraceInvariants : Obligations.ResetHasTheTraceInvariants :=
  ⟨chunkInv_of_begun rfl rfl rfl, frameInv_of_not_sending rfl, rfl,
    reportInv_of_begun rfl (by simp [State.reset, St.afterFinal])⟩

end Sys2Proof.Machine
end

section
/-! What a step does depends on nothing of the past (10_state.md R26, R28(f)): the relation of two states that differ
only there is kept by every update, hence by every operation of the engine and by every command. -/

namespace Sys2Proof.Machine

/-- The state without what the past leaves in it. -/
def State.forget (s : State) : State := { s with frameBuf := [], trace := [], checksumResult := none }

theorem sameButPast_iff {s₁ s₂ : State} : SameButPast s₁ s₂ ↔ s₁.frame = s₂.frame ∧ s₁.forget = s₂.forget :=
  Iff.rfl

namespace SameButPast

variable {s₁ s₂ : State} (h : SameButPast s₁ s₂)
include h

/-! ### What two such states agree in -/

theorem frame : s₁.frame = s₂.frame := (sameButPast_iff.mp h).1
theorem forget : s₁.forget = s₂.forget := (sameButPast_iff.mp h).2

/-- They agree in everything that is read without looking at the past. -/
theorem agree {α : Type} (f : State → α) (hf : ∀ s, f s.forget = f s) : f s₁ = f s₂ := by
  rw [← hf s₁, ← hf s₂, h.forget]

theorem st : s₁.st = s₂.st := h.agree State.st fun _ => rfl
theorem reqLength : s₁.reqLength = s₂.reqLength := h.agree State.reqLength fun _ => rfl
theorem reqAddress : s₁.reqAddress = s₂.reqAddress := h.agree State.reqAddress fun _ => rfl
theorem reqTerm : s₁.reqTerm = s₂.reqTerm := h.agree State.reqTerm fun _ => rfl
theorem frameCount : s₁.frameCount = s₂.frameCount := h.agree State.frameCount fun _ => rfl
theorem frameNumber : s₁.frameNumber = s₂.frameNumber := h.agree State.frameNumber fun _ => rfl
theorem remaining : s₁.remaining = s₂.remaining := h.agree State.remaining fun _ => rfl
theorem command : s₁.command = s₂.command := h.agree State.command fun _ => rfl
theorem openAnswer : s₁.openAnswer = s₂.openAnswer := h.agree State.openAnswer fun _ => rfl
theorem readAnswer (n : Nat) : s₁.readAnswer n = s₂.readAnswer n := h.agree (State.readAnswer n) fun _ => rfl
theorem txAnswer : s₁.txAnswer = s₂.txAnswer := h.agree State.txAnswer fun _ => rfl
theorem rxAnswer : s₁.rxAnswer = s₂.rxAnswer := h.agree State.rxAnswer fun _ => rfl

theorem tableRow_eq : tableRow s₁ = tableRow s₂ := by
  simp only [tableRow, tableRow.sendRow, tableRow.waitRow, h.st, h.frame, h.openAnswer, h.txAnswer, h.rxAnswer,
    h.remaining, h.readAnswer, h.frameNumber, h.frameCount, h.reqTerm]

/-! ### Every update keeps the relation -/

theorem setSt (x : St) : SameButPast (s₁.setSt x) (s₂.setSt x) := ⟨h.frame, congrArg (State.setSt x) h.forget⟩

theorem emit (e : Event) : SameButPast (s₁.emit e) (s₂.emit e) := ⟨h.frame, h.forget⟩

theorem afterHost : SameButPast s₁.afterHost s₂.afterHost := ⟨h.frame, congrArg State.afterHost h.forget⟩

theorem storeFrame (f : ByteStr) : SameButPast (s₁.storeFrame f) (s₂.storeFrame f) :=
  ⟨(storeFrame_frame f s₁).trans (storeFrame_frame f s₂).symm,
    congrArg (fun s => { s with frameLen := f.length }) h.forget⟩

theorem setCounters (fn r : Word) :
    SameButPast { s₁ with frameNumber := fn, remaining := r } { s₂ with frameNumber := fn, remaining := r } :=
  ⟨h.frame, congrArg (fun s : State => { s with frameNumber := fn, remaining := r }) h.forget⟩

theorem latch (len addr : Word) (term : Bool) : SameButPast (s₁.latch len addr term) (s₂.latch len addr term) :=
  ⟨rfl, congrArg (fun s => (s.latch len addr term).forget) h.forget⟩

theorem resetRegisters : SameButPast s₁.resetRegisters s₂.resetRegisters :=
  ⟨by simp [State.frame], congrArg (fun s => s.resetRegisters.forget) h.forget⟩

end SameButPast

/-! Consuming an answer and taking a fault branch on the state; the branches see the same of both. -/

theorem State.forget_afterOpen (s : State) : s.afterOpen.forget = s.forget.afterOpen := by
  cases hs : s.openIn <;> simp [afterOpen, forget, hs]

theorem State.forget_afterRead (s : State) : s.afterRead.forget = s.forget.afterRead := by
  cases hs : s.readIn <;> simp [afterRead, forget, hs]

theorem State.forget_afterTx (s : State) : s.afterTx.forget = s.forget.afterTx := by
  cases hs : s.txIn <;> simp [afterTx, forget, hs]

theorem State.forget_afterRx (s : State) : s.afterRx.forget = s.forget.afterRx := by
  cases hs : s.rxIn <;> simp [afterRx, forget, hs]

theorem State.forget_raise (k : FaultKind) (v : Byte) (s : State) : (s.raise k v).forget = s.forget.raise k v := by
  by_cases hs : s.st = .fault <;> simp [raise, forget, hs]

namespace SameButPast

variable {s₁ s₂ : State} (h : SameButPast s₁ s₂)
include h

theorem afterOpen : SameButPast s₁.afterOpen s₂.afterOpen :=
  sameButPast_iff.mpr ⟨by simpa [State.frame] using h.frame, by simp [State.forget_afterOpen, h.forget]⟩

theorem afterRead : SameButPast s₁.afterRead s₂.afterRead :=
  sameButPast_iff.mpr ⟨by simpa [State.frame] using h.frame, by simp [State.forget_afterRead, h.forget]⟩

theorem afterTx : SameButPast s₁.afterTx s₂.afterTx :=
  sameButPast_iff.mpr ⟨by simpa [State.frame] using h.frame, by simp [State.forget_afterTx, h.forget]⟩

theorem afterRx : SameButPast s₁.afterRx s₂.afterRx :=
  sameButPast_iff.mpr ⟨by simpa [State.frame] using h.frame, by simp [State.forget_afterRx, h.forget]⟩

theorem raise (k : FaultKind) (v : Byte) : SameButPast (s₁.raise k v) (s₂.raise k v) :=
  sameButPast_iff.mpr ⟨by simpa [State.frame] using h.frame, by simp [State.forget_raise, h.forget]⟩

/-! ### Every operation of the engine keeps it -/

theorem openStep : SameButPast (openStep s₁) (openStep s₂) := by
  unfold Machine.openStep
  rw [h.openAnswer, h.reqLength, h.reqAddress]
  split
  · exact ((h.afterOpen.emit _).storeFrame _).setSt _
  · exact (h.afterOpen.emit _).raise _ _

theorem transmit (f : ByteStr) : SameButPast (transmit f s₁) (transmit f s₂) := by
  unfold Machine.transmit
  rw [h.st, h.txAnswer]
  split
  · exact h
  · split
    · exact (h.afterTx.emit _).setSt _
    · exact (h.afterTx.emit _).raise _ _
    · exact (h.afterTx.emit _).raise _ _

theorem receive (a : RxAnswer) : SameButPast (receive a s₁) (receive a s₂) := by
  unfold Machine.receive
  rw [h.st]
  split
  · exact h
  · split
    · split
      · exact (((h.emit _).emit _).emit _).setSt _
      · exact (h.emit _).raise _ _
    · exact (h.emit _).raise _ _
    · exact (h.emit _).raise _ _

theorem chunkRead (n : Nat) (bytes : ByteStr) : SameButPast (chunkRead n bytes s₁) (chunkRead n bytes s₂) := by
  unfold Machine.chunkRead
  rw [h.frameNumber, h.remaining]
  split
  · exact ((h.setCounters _ _).storeFrame _).setSt _
  · exact h.raise _ _

theorem readChunk : SameButPast (readChunk s₁) (readChunk s₂) := by
  unfold Machine.readChunk
  dsimp only
  rw [h.st, h.remaining, h.readAnswer]
  split
  · split
    · exact h.setSt _
    · split
      · exact (h.afterRead.emit _).chunkRead _ _
      · exact (h.afterRead.emit _).raise _ _
      · exact (h.afterRead.emit _).raise _ _
  · exact h

theorem cadenceReport : SameButPast (cadenceReport s₁) (cadenceReport s₂) := by
  unfold Machine.cadenceReport
  rw [h.frameNumber, h.frameCount]
  split
  · exact (h.emit _).setSt _
  · exact h.setSt _

theorem finalReport : SameButPast (finalReport s₁) (finalReport s₂) := by
  unfold Machine.finalReport
  rw [h.reqTerm, h.frameNumber]
  split
  · exact ((h.emit _).storeFrame _).setSt _
  · exact (h.emit _).setSt _

end SameButPast

/-- The transition that `st` selects is the same one for both. -/
theorem SameButPast.of_engineStep {u₁ u₂ t₁ t₂ : State} (h : SameButPast u₁ u₂) (h₁ : engineStep u₁ = .next t₁)
    (h₂ : engineStep u₂ = .next t₂) : SameButPast t₁ t₂ := by
  rcases engineStep_cases u₁ with ⟨hu, e⟩ | ⟨hu, e⟩ | ⟨hu, e⟩ | ⟨hu, e⟩ | ⟨hu, e⟩ | ⟨hu, e⟩ | ⟨hu, e⟩ <;>
    rw [e] at h₁ <;> cases h₁ <;> rw [h.st] at hu
  · cases (engineStep_rest hu).symm.trans h₂
    exact h
  · cases (engineStep_opening hu).symm.trans h₂
    exact h.openStep
  · obtain ⟨w, hw⟩ := Option.isSome_iff_exists.mp hu
    cases (engineStep_send hw).symm.trans h₂
    exact h.frame ▸ h.transmit _
  · obtain ⟨n, hn⟩ := Option.isSome_iff_exists.mp hu
    cases (engineStep_wait hn).symm.trans h₂
    exact h.rxAnswer ▸ h.afterRx.receive _
  · cases (engineStep_dRead hu).symm.trans h₂
    exact h.readChunk
  · cases (engineStep_dReport hu).symm.trans h₂
    exact h.cadenceReport
  · cases (engineStep_fReport hu).symm.trans h₂
    exact h.finalReport

/-- A command has the same effect on both, and the same event. -/
theorem SameButPast.of_commanded {u₁ u₂ t₁ t₂ : State} {c : Command} (h : SameButPast u₁ u₂) (h₁ : Commanded u₁ c t₁)
    (h₂ : Commanded u₂ c t₂) :
    SameButPast t₁ t₂ ∧ ∃ es, t₁.trace = u₁.trace ++ es ∧ t₂.trace = u₂.trace ++ es := by
  cases h₁ with
  | start len addr tm hrest =>
    cases h₂ with
    | start => exact ⟨h.latch len addr _, [.start len addr _], rfl, rfl⟩
    | startBusy _ _ _ hbusy => simp [h.st, hbusy] at hrest
  | startBusy len addr tm hbusy =>
    cases h₂ with
    | start _ _ _ hrest => simp [h.st, hrest] at hbusy
    | startBusy => exact ⟨h, [], by simp, by simp⟩
  | reset =>
    cases h₂
    exact ⟨h.resetRegisters, [.reset], rfl, rfl⟩

/-- Settles O57: the two states run the same command or the same transition; its events are those of one row. -/
theorem nothingOfThePastShows : Obligations.NothingOfThePastShows := by
  intro s₁ s₂ t₁ t₂ h h₁ h₂
  cases hc : s₁.command with
  | none =>
    have hc₂ : s₂.command = none := h.command ▸ hc
    refine ⟨h.afterHost.of_engineStep (step_of_no_command hc ▸ h₁) (step_of_no_command hc₂ ▸ h₂),
      (tableRow s₁).1, ?_, ?_⟩
    · exact (stepped_of_step hc h₁).follows_tableRow.1
    · rw [h.tableRow_eq]
      exact (stepped_of_step hc₂ h₂).follows_tableRow.1
  | some c =>
    have hc₂ : s₂.command = some c := h.command ▸ hc
    exact h.afterHost.of_commanded (commanded_of_step hc h₁) (commanded_of_step hc₂ h₂)

/-- Settles O58: START writes every register, and the frame it leaves is empty. -/
theorem startForgetsTheTransferBefore : Obligations.StartForgetsTheTransferBefore := by
  intro len addr term s₁ s₂ t₁ t₂ hr₁ hr₂ hhost hopen hread htx hrx hfree h₁ h₂
  rw [exec_start_of_rest hr₁] at h₁
  rw [exec_start_of_rest hr₂] at h₂
  cases h₁
  cases h₂
  exact sameButPast_iff.mpr ⟨rfl, by simp [State.latch, State.forget, hhost, hopen, hread, htx, hrx, hfree]⟩

end Sys2Proof.Machine
end

section
/-! The operations one by one: their codes and results, the handshake as one operation (42_handshake.md R110 to R113),
and what an operation leaves as it is (43_transfer.md R132; 10_state.md R22 to R27; 60_exceptions.md R156, R157). -/

namespace Sys2Proof.Machine

/-! ### The codes (10_state.md R21; 60_exceptions.md R150, R151, R154, R158) -/

/-- Settles O21: the codes are the positions in the table, so distinct. -/
theorem stateCodesAreTheTables : Obligations.StateCodesAreTheTables := by
  refine ⟨by decide, fun x y => ⟨?_, ?_⟩⟩
  · cases x <;> decide
  · cases x <;> cases y <;> decide

theorem ofCode_code (k : FaultKind) : FaultKind.ofCode k.code = some k := by cases k <;> rfl

theorem result_of_done {s : State} (h : s.st = .done) : s.result = some (.ok ()) := by simp [State.result, h]

theorem result_of_fault {s : State} (h : s.st = .fault) :
    s.result = some (.error (FaultKind.ofCode s.faultCode)) := by simp [State.result, h]

theorem result_of_ne {s : State} (hd : s.st ≠ .done) (hf : s.st ≠ .fault) : s.result = none := by
  cases hs : s.st <;> simp_all [State.result]

/-- Settles O22: the table's rows, and the result and the data frame read off `st` and `faultAt`. -/
theorem faultCodesAndResult : Obligations.FaultCodesAndResult := by
  refine ⟨rfl, rfl, ofCode_code, fun s => ⟨⟨result_of_done, fun h => ?_⟩, result_of_fault, result_of_ne, fun h => ?_,
    fun h => ?_⟩⟩
  · by_contra hd
    by_cases hf : s.st = .fault
    · rw [result_of_fault hf] at h; cases h
    · rw [result_of_ne hd hf] at h; cases h
  · rcases h with h | h <;> simp [State.faultingDataFrame, h, St.code]
  · simp [State.faultingDataFrame, h, St.code]

/-! ### The source's answers (10_state.md R32) -/

theorem readAnswer_of_listed {s : State} {a : ReadAnswer} {rest : List ReadAnswer} (h : s.readIn = a :: rest)
    (n : Nat) : s.readAnswer n = conformRead n a := by
  simp [State.readAnswer, h]

theorem afterRead_of_listed {s : State} {a : ReadAnswer} {rest : List ReadAnswer} (h : s.readIn = a :: rest) :
    s.afterRead = { s with readIn := rest } := by
  simp [State.afterRead, h]

theorem conformRead_of_length {n : Nat} {bytes : ByteStr} (h : bytes.length = n) :
    conformRead n (.data bytes) = .data bytes := by
  subst h
  simp [conformRead]

/-- Settles O33: an answer is conformed to the length asked for, which changes none that has it. -/
theorem sourceAnswersHaveTheLengthAskedFor : Obligations.SourceAnswersHaveTheLengthAskedFor := fun n _ =>
  ⟨fun _ => readAnswer_length,
    fun _ _ h hlen => ⟨(readAnswer_of_listed h n).trans (conformRead_of_length hlen), afterRead_of_listed h⟩,
    fun _ h => readAnswer_of_listed h n, fun _ h => readAnswer_of_listed h n⟩

/-! ### The frames and the acknowledgments as operations -/

/-- A frame on the transmit stream is the SEND step for its encoding. -/
theorem exec_of_encode {i : Instr} {f : ByteStr} (h : encode i = some (.transmit, f)) (s : State) :
    exec i s = .next (transmit f s) := by
  cases i <;> cases h <;> rfl

theorem exec_ackOk (s : State) : exec .ackOk s = .next (receive (.byte 0xAA) s) := rfl

theorem exec_ackOther (v : Byte) (s : State) : exec (.ackOther v) s = .next (receive (.byte v) s) := rfl

/-- Settles O23: the SEND step's rule for each answer. -/
theorem framesAreWrittenWhole : Obligations.FramesAreWrittenWhole := by
  rintro i f _ w s henc hx rfl
  have hw := (mem_sendPairs_iff _ _).mp hx
  rw [exec_of_encode henc]
  exact ⟨fun ha => congrArg _ (transmit_ok hw f ha), fun ha => congrArg _ (transmit_timeout hw f ha),
    fun ha => congrArg _ (transmit_ioerr hw f ha)⟩

/-- Settles O25: the WAIT step's rule for `0xAA`. -/
theorem ackOkPurgesAndGoesOn : Obligations.AckOkPurgesAndGoesOn := by
  rintro _ n s hx rfl
  exact congrArg _ (receive_ackOk ((mem_ackPairs_iff _ _).mp hx))

/-- Settles O26: the WAIT step's rule for any other byte. -/
theorem ackOtherIsAFaultWithItsValue : Obligations.AckOtherIsAFaultWithItsValue := by
  rintro v _ n s hv hx rfl
  exact congrArg _ (receive_ackOther ((mem_ackPairs_iff _ _).mp hx) hv)

/-! ### The WAIT step with its request, one rule for each answer -/

section Await

variable {s : State} {n : St} (hn : s.st.afterAck = some n)
include hn

theorem awaitAck_of_some : awaitAck s = receive s.rxAnswer s.afterRx := by
  simp [awaitAck, hn]

theorem afterRx_afterAck : s.afterRx.st.afterAck = some n := by rwa [State.afterRx_st]

theorem awaitAck_ackOk (ha : s.rxAnswer = .byte 0xAA) : awaitAck s =
    { s.afterRx with st := n, trace := s.trace ++ [.rx (.byte 0xAA), .purgeIn, .purgeOut] } := by
  rw [awaitAck_of_some hn, ha, receive_ackOk (afterRx_afterAck hn), State.afterRx_trace]

theorem awaitAck_ackOther {b : Byte} (hb : b ≠ 0xAA) (ha : s.rxAnswer = .byte b) : awaitAck s =
    faultEntry 2 b s.st.code { s.afterRx with trace := s.trace ++ [.rx (.byte b)] } := by
  simp [awaitAck_of_some hn, ha, receive_ackOther (afterRx_afterAck hn) hb]

theorem awaitAck_timeout (ha : s.rxAnswer = .timeout) : awaitAck s =
    faultEntry 1 0 s.st.code { s.afterRx with trace := s.trace ++ [.rx .timeout] } := by
  simp [awaitAck_of_some hn, ha, receive_timeout (afterRx_afterAck hn)]

theorem awaitAck_ioerr (ha : s.rxAnswer = .ioerr) : awaitAck s =
    faultEntry 3 0 s.st.code { s.afterRx with trace := s.trace ++ [.rx .ioerr] } := by
  simp [awaitAck_of_some hn, ha, receive_ioerr (afterRx_afterAck hn)]

end Await

/-! ### Outside their states the operations do nothing (log 9) -/

theorem transmit_of_none {s : State} (h : s.st.afterSend = none) (f : ByteStr) : transmit f s = s := by
  simp [transmit, h]

theorem receive_of_none {s : State} (h : s.st.afterAck = none) (a : RxAnswer) : receive a s = s := by
  simp [receive, h]

theorem awaitAck_of_none {s : State} (h : s.st.afterAck = none) : awaitAck s = s := by
  simp [awaitAck, h]

theorem handshake_of_none {s : State} (hs : s.st.afterSend = none) (ha : s.st.afterAck = none) : handshake s = s := by
  rw [handshake, transmit_of_none hs, awaitAck_of_none ha]

theorem readChunk_of_ne {s : State} (h : s.st ≠ .dRead) : readChunk s = s := if_neg h

theorem reportProgress_of_ne {s : State} (hd : s.st ≠ .dReport) (hf : s.st ≠ .fReport) : reportProgress s = s := by
  rw [reportProgress, if_neg hd, if_neg hf]

theorem afterSend_eq_none {x : St} (h : x ∉ [St.aSend, .dSend, .tSend]) : x.afterSend = none :=
  Option.eq_none_iff_forall_ne_some.mpr fun _ hw => h (mem_sendStates hw)

theorem afterAck_eq_none {x : St} (h : x ∉ [St.aWait, .dWait, .tWait]) : x.afterAck = none :=
  Option.eq_none_iff_forall_ne_some.mpr fun _ hn => h (mem_waitStates hn)

/-- Settles O42: each operation first looks at `st`. -/
theorem operationsOutsideTheirStatesDoNothing : Obligations.OperationsOutsideTheirStatesDoNothing := by
  intro s
  refine ⟨fun h i f henc => ?_, fun h => ⟨?_, fun v => ?_⟩, fun h => ?_, fun h => ?_, fun h => ?_⟩
  · rw [exec_of_encode henc, transmit_of_none (afterSend_eq_none h)]
  · rw [exec_ackOk, receive_of_none (afterAck_eq_none h)]
  · rw [exec_ackOther, receive_of_none (afterAck_eq_none h)]
  · have hsend : s.st.afterSend = none := afterSend_eq_none (by simp_all)
    have hack : s.st.afterAck = none := afterAck_eq_none (by simp_all)
    exact congrArg _ (handshake_of_none hsend hack)
  · exact congrArg _ (readChunk_of_ne h)
  · simp only [List.mem_cons, List.not_mem_nil, or_false, not_or] at h
    exact congrArg _ (reportProgress_of_ne h.1 h.2)

/-! ### SEND_AND_AWAIT_ACK (42_handshake.md R110) -/

theorem exec_sendAndAwaitAck (s : State) : exec .sendAndAwaitAck s = .next (awaitAck (transmit s.frame s)) := rfl

/-- Consuming the reply touches neither `st` nor the trace. -/
theorem afterRx_with (s : State) (x : St) (tr : List Event) :
    State.afterRx { s with st := x, trace := tr } = { s.afterRx with st := x, trace := tr } := by
  cases hs : s.rxIn <;> simp [State.afterRx, hs]

/-- After a failed write nothing is read. -/
theorem awaitAck_faultEntry (c : BitVec 3) (v : Byte) (x : BitVec 4) (s : State) :
    awaitAck (faultEntry c v x s) = faultEntry c v x s :=
  awaitAck_of_none rfl

/-- Settles O28: the SEND step's rule for each answer, then the WAIT step's. -/
theorem handshakeFollowsItsRule : Obligations.HandshakeFollowsItsRule := by
  rintro _ w n s hx hy rfl
  have hw := (mem_sendPairs_iff _ _).mp hx
  have hn : ∀ tr, ({ s.afterTx with st := w, trace := tr } : State).st.afterAck = some n :=
    fun _ => (mem_ackPairs_iff _ _).mp hy
  refine ⟨fun ha => ?_, fun ha => ?_, fun ha hb => ?_, fun ha hb => ?_, fun b hne ha hb => ?_, fun ha hb => ?_⟩ <;>
    rw [exec_sendAndAwaitAck]
  · rw [transmit_timeout hw _ ha, awaitAck_faultEntry]; rfl
  · rw [transmit_ioerr hw _ ha, awaitAck_faultEntry]; rfl
  · rw [transmit_ok hw _ ha, awaitAck_timeout (hn _) hb, afterRx_with, List.append_assoc]; rfl
  · rw [transmit_ok hw _ ha, awaitAck_ioerr (hn _) hb, afterRx_with, List.append_assoc]; rfl
  · rw [transmit_ok hw _ ha, awaitAck_ackOther (hn _) hne hb, afterRx_with, List.append_assoc]; rfl
  · rw [transmit_ok hw _ ha, awaitAck_ackOk (hn _) hb, afterRx_with, List.append_assoc]; rfl

/-- Settles O30: in `X_WAIT` there is no write, and the read follows the WAIT step's rule. -/
theorem handshakeFromTheWaitStates : Obligations.HandshakeFromTheWaitStates := by
  rintro _ n s hx rfl
  have hn := (mem_ackPairs_iff _ _).mp hx
  have hsend : s.st.afterSend = none := by
    rcases afterAck_some hn with ⟨hs, -⟩ | ⟨hs, -⟩ | ⟨hs, -⟩ <;> rw [hs] <;> rfl
  rw [exec_sendAndAwaitAck, transmit_of_none hsend]
  exact ⟨fun ha => congrArg _ (awaitAck_ackOk hn ha), fun b hb ha => congrArg _ (awaitAck_ackOther hn hb ha),
    fun ha => congrArg _ (awaitAck_timeout hn ha), fun ha => congrArg _ (awaitAck_ioerr hn ha)⟩

/-! ### The handshake against the machine's two steps -/

theorem run_zero (s : State) : Host.Core.run Sys2Proof.core 0 s = .next s := rfl

theorem run_succ {s t : State} (h : step s = .next t) (k : Nat) :
    Host.Core.run Sys2Proof.core (k + 1) s = Host.Core.run Sys2Proof.core k t := by
  have h' : Sys2Proof.core.step s = .next t := h
  simp only [Host.Core.run, h']

theorem command_of_hostIn_nil {s : State} (h : s.hostIn = []) : s.command = none := by simp [State.command, h]

theorem afterHost_of_hostIn_nil {s : State} (h : s.hostIn = []) : s.afterHost = s := by
  rw [State.afterHost, h, List.tail_nil, ← h]

/-- The SEND step ends in the `X_WAIT` of its frame or in FAULT; the host port is untouched. -/
theorem transmit_ends {s : State} {w : St} (hw : s.st.afterSend = some w) (f : ByteStr) :
    (transmit f s).hostIn = s.hostIn ∧ ((transmit f s).st = w ∨ (transmit f s).st = .fault) := by
  cases ha : s.txAnswer with
  | ok => rw [transmit_ok hw f ha]; exact ⟨s.afterTx_hostIn, .inl rfl⟩
  | timeout => rw [transmit_timeout hw f ha]; exact ⟨s.afterTx_hostIn, .inr rfl⟩
  | ioerr => rw [transmit_ioerr hw f ha]; exact ⟨s.afterTx_hostIn, .inr rfl⟩

theorem afterAck_of_afterSend {x w : St} (h : x.afterSend = some w) : ∃ n, w.afterAck = some n := by
  rcases afterSend_some h with ⟨-, rfl⟩ | ⟨-, rfl⟩ | ⟨-, rfl⟩ <;> exact ⟨_, rfl⟩

/-- Settles O29: the first step is the SEND step; the second is the WAIT step, or the rest of FAULT. -/
theorem handshakeIsTheSendAndTheWaitStep : Obligations.HandshakeIsTheSendAndTheWaitStep := by
  rintro _ w s hx rfl hhost
  have hw := (mem_sendPairs_iff _ _).mp hx
  obtain ⟨n, hn⟩ := afterAck_of_afterSend hw
  have hfirst : step s = .next (transmit s.frame s) := by
    rw [step_send hw (command_of_hostIn_nil hhost), afterHost_of_hostIn_nil hhost]
  obtain ⟨hkept, hends⟩ := transmit_ends hw s.frame
  have hhost' := hkept.trans hhost
  have hcmd := command_of_hostIn_nil hhost'
  have hsecond : step (transmit s.frame s) = .next (awaitAck (transmit s.frame s)) := by
    rcases hends with hst | hst
    · have hn' : (transmit s.frame s).st.afterAck = some n := hst ▸ hn
      rw [step_wait hn' hcmd, afterHost_of_hostIn_nil hhost', awaitAck_of_some hn']
    · rw [restStatesStayUntilACommand _ (by simp [hst, restStates]) hcmd, afterHost_of_hostIn_nil hhost',
        awaitAck_of_none (by rw [hst]; rfl)]
  rw [run_succ hfirst, run_succ hsecond, run_zero]
  rfl

end Sys2Proof.Machine
end

section
/-! Who writes which register (10_state.md R22 to R27, R38), over every operation, and that in FAULT none but START and
RESET writes `st` or the fault registers (60_exceptions.md R156, R157). -/

namespace Sys2Proof.Machine

/-! ### In FAULT -/

/-- In FAULT an operation that is no host command does nothing, gives a checksum, or stores a frame. -/
theorem exec_of_fault {i : Instr} {s t : State} (hs : s.st = .fault)
    (hstart : ∀ len addr term, i ≠ .start len addr term) (hreset : i ≠ .reset) (h : exec i s = .next t) :
    t = s ∨ (∃ ck, t = { s with checksumResult := ck }) ∨ ∃ f, t = s.storeFrame f := by
  have hsend : s.st.afterSend = none := by rw [hs]; rfl
  have hack : s.st.afterAck = none := by rw [hs]; rfl
  cases i with
  | frameAnnounce | frameData | frameTerminate =>
    rw [exec_of_encode rfl, transmit_of_none hsend] at h
    cases h
    exact .inl rfl
  | ackOk =>
    rw [exec_ackOk, receive_of_none hack] at h
    cases h
    exact .inl rfl
  | ackOther v =>
    rw [exec_ackOther, receive_of_none hack] at h
    cases h
    exact .inl rfl
  | start len addr term => exact absurd rfl (hstart len addr term)
  | reset => exact absurd rfl hreset
  | checksum bytes => cases h; exact .inr (.inl ⟨_, rfl⟩)
  | buildAnnounce | buildTerminate => cases h; exact .inr (.inr ⟨_, rfl⟩)
  | buildData seq payload =>
    rcases Nat.lt_or_ge 1024 payload.length with hgt | hle
    · rw [exec_buildData_of_gt seq hgt, State.raise_of_fault hs] at h
      cases h
      exact .inl rfl
    · rw [exec_buildData_of_le seq hle] at h
      cases h
      exact .inr (.inr ⟨_, rfl⟩)
  | sendAndAwaitAck => cases h; exact .inl (handshake_of_none hsend hack)
  | readChunk => cases h; exact .inl (readChunk_of_ne (by simp [hs]))
  | reportProgress => cases h; exact .inl (reportProgress_of_ne (by simp [hs]) (by simp [hs]))

/-- Settles O44: none of the three things an operation can do there writes those registers. -/
theorem faultIsHeldUntilStartOrReset : Obligations.FaultIsHeldUntilStartOrReset := by
  intro i s t hs hstart hreset h
  rcases exec_of_fault hs hstart hreset h with rfl | ⟨ck, rfl⟩ | ⟨f, rfl⟩ <;> exact ⟨hs, rfl, rfl, rfl, rfl⟩

/-! ### Groups of registers with the same writers -/

/-- What only START and RESET write (R22, R23), and what no operation takes from the host and the opening source. -/
def State.requestPart (s : State) : Word × Word × Bool × Word × List (Option Command) × List OpenAnswer :=
  (s.reqLength, s.reqAddress, s.reqTerm, s.frameCount, s.hostIn, s.openIn)

/-- The counters and the source's answers (R24, R25, R32). -/
def State.counterPart (s : State) : Word × Word × List ReadAnswer := (s.frameNumber, s.remaining, s.readIn)

/-- The frame registers (R26). -/
def State.framePart (s : State) : ByteStr × Nat := (s.frameBuf, s.frameLen)

/-- The fault registers (R27). -/
def State.faultPart (s : State) : BitVec 3 × Byte × BitVec 4 := (s.faultCode, s.faultValue, s.faultAt)

/-- The fault registers are written only on the way into FAULT, which is held. -/
structure KeepsFault (s t : State) : Prop where
  held : s.st = .fault → t.st = .fault
  registers : t.st ≠ .fault → t.faultPart = s.faultPart

/-- What the handshake keeps: all registers but `st`, and but the fault registers on the way into FAULT. -/
structure KeepsRegisters (s t : State) : Prop where
  request : t.requestPart = s.requestPart
  counters : t.counterPart = s.counterPart
  frame : t.framePart = s.framePart
  checksum : t.checksumResult = s.checksumResult
  fault : KeepsFault s t

theorem KeepsFault.of_fault {s t : State} (ht : t.st = .fault) : KeepsFault s t :=
  ⟨fun _ => ht, fun hne => absurd ht hne⟩

theorem KeepsFault.of_eq {s t : State} (hs : s.st ≠ .fault) (h : t.faultPart = s.faultPart) : KeepsFault s t :=
  ⟨fun hf => absurd hf hs, fun _ => h⟩

theorem KeepsFault.trans {s t u : State} (h : KeepsFault s t) (h' : KeepsFault t u) : KeepsFault s u :=
  ⟨fun hs => h'.held (h.held hs), fun hu => (h'.registers hu).trans (h.registers (mt h'.held hu))⟩

theorem KeepsRegisters.refl (s : State) : KeepsRegisters s s := ⟨rfl, rfl, rfl, rfl, ⟨id, fun _ => rfl⟩⟩

theorem KeepsRegisters.trans {s t u : State} (h : KeepsRegisters s t) (h' : KeepsRegisters t u) :
    KeepsRegisters s u :=
  ⟨h'.request.trans h.request, h'.counters.trans h.counters, h'.frame.trans h.frame, h'.checksum.trans h.checksum,
    h.fault.trans h'.fault⟩

/-! ### What each operation keeps -/

theorem afterSend_from_ne_fault {x w : St} (h : x.afterSend = some w) : x ≠ .fault := by
  rintro rfl; cases h

theorem afterAck_from_ne_fault {x n : St} (h : x.afterAck = some n) : x ≠ .fault := by
  rintro rfl; cases h

theorem keeps_afterRx (s : State) : KeepsRegisters s s.afterRx := by
  refine ⟨?_, ?_, ?_, by simp, by simp, fun _ => ?_⟩ <;>
    simp [State.requestPart, State.counterPart, State.framePart, State.faultPart]

theorem transmit_keeps (f : ByteStr) (s : State) : KeepsRegisters s (transmit f s) := by
  rcases transmit_cases f s with ⟨-, e⟩ | ⟨w, hw, ⟨-, e⟩ | ⟨-, e⟩ | ⟨-, e⟩⟩ <;> rw [e]
  · exact .refl s
  · refine ⟨?_, ?_, ?_, by simp, .of_eq (afterSend_from_ne_fault hw) ?_⟩ <;>
      simp [State.requestPart, State.counterPart, State.framePart, State.faultPart]
  · refine ⟨?_, ?_, ?_, by simp, .of_fault rfl⟩ <;> simp [State.requestPart, State.counterPart, State.framePart]
  · refine ⟨?_, ?_, ?_, by simp, .of_fault rfl⟩ <;> simp [State.requestPart, State.counterPart, State.framePart]

theorem receive_keeps (a : RxAnswer) (s : State) : KeepsRegisters s (receive a s) := by
  rcases receive_cases a s with ⟨-, e⟩ | ⟨n, hn, ⟨-, e⟩ | ⟨b, -, -, e⟩ | ⟨-, e⟩ | ⟨-, e⟩⟩ <;> rw [e]
  · exact .refl s
  · exact ⟨rfl, rfl, rfl, rfl, .of_eq (afterAck_from_ne_fault hn) rfl⟩
  · exact ⟨rfl, rfl, rfl, rfl, .of_fault rfl⟩
  · exact ⟨rfl, rfl, rfl, rfl, .of_fault rfl⟩
  · exact ⟨rfl, rfl, rfl, rfl, .of_fault rfl⟩

theorem awaitAck_keeps (s : State) : KeepsRegisters s (awaitAck s) := by
  cases hn : s.st.afterAck with
  | none => rw [awaitAck_of_none hn]; exact .refl s
  | some n => rw [awaitAck_of_some hn]; exact (keeps_afterRx s).trans (receive_keeps _ _)

theorem readChunk_keeps (s : State) : (readChunk s).requestPart = s.requestPart ∧
    (readChunk s).checksumResult = s.checksumResult ∧ KeepsFault s (readChunk s) := by
  by_cases hs : s.st = .dRead
  · have hne : s.st ≠ .fault := by simp [hs]
    rcases readChunk_cases hs with ⟨-, e⟩ | ⟨-, bytes, -, -, e⟩ | ⟨-, a, -, -, e⟩ <;> rw [e]
    · exact ⟨rfl, rfl, .of_eq hne rfl⟩
    · exact ⟨by simp [State.requestPart], by simp, .of_eq hne (by simp [State.faultPart])⟩
    · exact ⟨by simp [State.requestPart], by simp, .of_fault rfl⟩
  · rw [readChunk_of_ne hs]
    exact ⟨rfl, rfl, (KeepsRegisters.refl s).fault⟩

/-- A report writes no more than `st`, the trace and the frame registers. -/
theorem reportProgress_cases (s : State) : reportProgress s = s ∨
    ∃ x tr buf n, reportProgress s = { s with st := x, trace := tr, frameBuf := buf, frameLen := n } := by
  by_cases hd : s.st = .dReport
  · right
    rw [reportProgress, if_pos hd]
    by_cases hk : cadence s.frameNumber.toNat s.frameCount.toNat = true
    · exact ⟨_, _, _, _, cadenceReport_of_cadence hk⟩
    · exact ⟨_, _, _, _, cadenceReport_of_not_cadence hk⟩
  by_cases hf : s.st = .fReport
  · right
    rw [reportProgress, if_neg hd, if_pos hf]
    by_cases ht : s.reqTerm = true
    · exact ⟨_, _, _, _, finalReport_of_term ht⟩
    · exact ⟨_, _, _, _, finalReport_of_no_term (Bool.eq_false_of_not_eq_true ht)⟩
  · exact .inl (reportProgress_of_ne hd hf)

/-! ### Every operation writes its own registers only -/

/-- The registers an operation may write, as the spec names its writers. -/
structure WritesItsOwn (i : Instr) (s t : State) : Prop where
  request : t.requestPart = s.requestPart
  counters : i ≠ .readChunk → t.counterPart = s.counterPart
  frame : i ≠ .readChunk → i ≠ .reportProgress → (∀ len addr, i ≠ .buildAnnounce len addr) →
    (∀ seq payload, i ≠ .buildData seq payload) → (∀ seq, i ≠ .buildTerminate seq) → t.framePart = s.framePart
  checksum : (∀ bytes, i ≠ .checksum bytes) → t.checksumResult = s.checksumResult
  fault : t.st ≠ .fault → t.faultPart = s.faultPart

theorem KeepsRegisters.writesItsOwn {s t : State} (h : KeepsRegisters s t) (i : Instr) : WritesItsOwn i s t :=
  ⟨h.request, fun _ => h.counters, fun _ _ _ _ _ => h.frame, fun _ => h.checksum, h.fault.registers⟩

theorem exec_writesItsOwn {i : Instr} {s t : State} (hstart : ∀ len addr term, i ≠ .start len addr term)
    (hreset : i ≠ .reset) (h : exec i s = .next t) : WritesItsOwn i s t := by
  cases i with
  | frameAnnounce | frameData | frameTerminate => cases h; exact (transmit_keeps _ s).writesItsOwn _
  | ackOk | ackOther => cases h; exact (receive_keeps _ s).writesItsOwn _
  | sendAndAwaitAck => cases h; exact ((transmit_keeps _ s).trans (awaitAck_keeps _)).writesItsOwn _
  | start len addr term => exact absurd rfl (hstart len addr term)
  | reset => exact absurd rfl hreset
  | checksum bytes =>
    cases h; exact ⟨rfl, fun _ => rfl, fun _ _ _ _ _ => rfl, fun hn => absurd rfl (hn bytes), fun _ => rfl⟩
  | buildAnnounce len addr =>
    cases h; exact ⟨rfl, fun _ => rfl, fun _ _ hn => absurd rfl (hn len addr), fun _ => rfl, fun _ => rfl⟩
  | buildTerminate seq =>
    cases h; exact ⟨rfl, fun _ => rfl, fun _ _ _ _ hn => absurd rfl (hn seq), fun _ => rfl, fun _ => rfl⟩
  | buildData seq payload =>
    rcases Nat.lt_or_ge 1024 payload.length with hgt | hle
    · rw [exec_buildData_of_gt seq hgt] at h
      cases h
      exact ⟨by simp [State.requestPart], fun _ => by simp [State.counterPart],
        fun _ _ _ hn => absurd rfl (hn seq payload), fun _ => by simp, fun hne => absurd (State.raise_st _ _ _) hne⟩
    · rw [exec_buildData_of_le seq hle] at h
      cases h
      exact ⟨rfl, fun _ => rfl, fun _ _ _ hn => absurd rfl (hn seq payload), fun _ => rfl, fun _ => rfl⟩
  | readChunk =>
    cases h
    obtain ⟨hreq, hsum, hfault⟩ := readChunk_keeps s
    exact ⟨hreq, fun hn => absurd rfl hn, fun hn => absurd rfl hn, fun _ => hsum, hfault.registers⟩
  | reportProgress =>
    cases h
    rcases reportProgress_cases s with e | ⟨x, tr, buf, n, e⟩ <;> rw [e] <;>
      exact ⟨rfl, fun _ => rfl, fun _ hn => absurd rfl hn, fun _ => rfl, fun _ => rfl⟩

/-- Settles O45: the groups of registers, taken apart. -/
theorem everyRegisterHasItsWriters : Obligations.EveryRegisterHasItsWriters := by
  intro i s t hstart hreset h
  obtain ⟨hreq, hcount, hframe, hsum, hfault⟩ := exec_writesItsOwn hstart hreset h
  simp only [State.requestPart, State.counterPart, State.framePart, State.faultPart, Prod.mk.injEq]
    at hreq hcount hframe hfault
  obtain ⟨hlen, haddr, hterm, hfc, hhost, hopen⟩ := hreq
  exact ⟨hlen, haddr, hterm, hfc, hhost, hopen, hcount, hframe, hsum, hfault⟩

end Sys2Proof.Machine
end

section
/-! Runs without a further command (92_eei_decisions.md D15): how steps join to runs, and the bound on a transfer's
length (70_reset_and_hazards.md R193). -/

namespace Sys2Proof.Machine

/-! ### Runs -/

/-- `k` steps lead from `s` to `t`. -/
def Reaches (k : Nat) (s t : State) : Prop := Host.Core.run Sys2Proof.core k s = .next t

theorem Reaches.zero (s : State) : Reaches 0 s s := run_zero s

theorem Reaches.step {s t u : State} {k : Nat} (h : step s = .next t) (hk : Reaches k t u) : Reaches (k + 1) s u :=
  (run_succ h k).trans hk

theorem Reaches.one {s t : State} (h : Machine.step s = .next t) : Reaches 1 s t := .step h (.zero t)

theorem Reaches.trans {s t u : State} {a b : Nat} (h : Reaches a s t) (h' : Reaches b t u) : Reaches (a + b) s u := by
  induction a generalizing s with
  | zero =>
    cases (Reaches.zero s).symm.trans h
    rwa [Nat.zero_add]
  | succ a ih =>
    obtain ⟨s', hs⟩ := step_answers s
    rw [Nat.add_right_comm]
    exact .step hs (ih ((run_succ hs a).symm.trans h))

/-! ### A quiet host port -/

theorem Quiet.command_eq_none {s : State} (h : Quiet s) : s.command = none := by
  cases hin : s.hostIn with
  | nil => exact command_of_hostIn_nil hin
  | cons o rest =>
    cases o with
    | none => simp [State.command, hin]
    | some c => exact absurd (by simp [hin]) (h c)

theorem Quiet.afterHost {s : State} (h : Quiet s) : Quiet s.afterHost := fun c hc => h c (List.mem_of_mem_tail hc)

theorem Quiet.of_hostIn {s t : State} (h : Quiet s) (ht : t.hostIn = s.hostIn) : Quiet t := fun c => ht ▸ h c

theorem Stepped.hostIn_eq {u t : State} (h : Stepped u t) : t.hostIn = u.hostIn := by
  cases h <;> simp

/-! ### The bound on a transfer's length -/

/-- The steps left from `D_READ` on, as a function of what remains. -/
theorem stepsLeft_loop (s : State) : stepsLeft.loop s = 4 * ((s.remaining.toNat + 1023) / 1024) + 4 := rfl

theorem stepsLeft_afterSend {s t : State} (hw : s.st.afterSend = some t.st) (hr : t.remaining = s.remaining) :
    stepsLeft t < stepsLeft s := by
  rcases afterSend_some hw with ⟨hs, ht⟩ | ⟨hs, ht⟩ | ⟨hs, ht⟩ <;> simp [stepsLeft, stepsLeft_loop, hs, ht, hr]

theorem stepsLeft_afterAck {s t : State} (hn : s.st.afterAck = some t.st) (hr : t.remaining = s.remaining) :
    stepsLeft t < stepsLeft s := by
  rcases afterAck_some hn with ⟨hs, ht⟩ | ⟨hs, ht⟩ | ⟨hs, ht⟩ <;> simp [stepsLeft, stepsLeft_loop, hs, ht, hr]

theorem stepsLeft_pos {s : State} (h : s.st.isRest = false) : 0 < stepsLeft s := by
  cases hs : s.st <;> simp [hs, St.isRest] at h <;> simp [stepsLeft, stepsLeft_loop, hs]

theorem stepsLeft_of_chunkTaken {u t : State} {bytes : ByteStr} (h : ChunkTaken u t bytes) :
    stepsLeft t < stepsLeft u := by
  have hpos := toNat_pos_of_ne_zero h.remaining_ne
  have hrem : t.remaining.toNat = u.remaining.toNat - min 1024 u.remaining.toNat := by
    rw [h.remaining, sub_chunkLen_toNat, chunkLen_eq]
  simp only [stepsLeft, stepsLeft_loop, h.st, h.st_next]
  omega

/-- A transition of a running transfer leaves fewer steps, and never leads to IDLE. -/
theorem Stepped.stepsLeft_lt {u t : State} (h : Stepped u t) (hu : u.st.isRest = false) :
    stepsLeft t < stepsLeft u ∧ t.st ≠ .idle := by
  rcases h.chunk_cases with hn | ⟨bytes, hc⟩
  · have hr := hn.remaining
    cases h with
    | rest hrest => simp [hrest] at hu
    | openFault | sendFault | waitFault | chunkFault => exact ⟨stepsLeft_pos hu, by simp⟩
    | openOk hs => exact ⟨by simp [stepsLeft, stepsLeft_loop, hs], by simp⟩
    | sendOk w hw =>
      exact ⟨stepsLeft_afterSend hw hr, by rcases afterSend_some hw with ⟨-, rfl⟩ | ⟨-, rfl⟩ | ⟨-, rfl⟩ <;> simp⟩
    | waitOk n hw =>
      exact ⟨stepsLeft_afterAck hw hr, by rcases afterAck_some hw with ⟨-, rfl⟩ | ⟨-, rfl⟩ | ⟨-, rfl⟩ <;> simp⟩
    | chunkData => exact absurd rfl hn.st_next
    | chunkEnd hs | report hs | noReport hs | finalTerm hs | finalDone hs =>
      refine ⟨?_, by simp⟩
      simp only [stepsLeft, stepsLeft_loop, hs]
      omega
  · exact ⟨stepsLeft_of_chunkTaken hc, by simp [hc.st_next]⟩

/-- A transfer begun and left alone reaches DONE or FAULT within its steps left. -/
theorem ends_within_stepsLeft (s : State) (hq : Quiet s) (hidle : s.st ≠ .idle) :
    ∃ k t, k ≤ stepsLeft s ∧ Reaches k s t ∧ (t.st = .done ∨ t.st = .fault) := by
  induction hm : stepsLeft s using Nat.strong_induction_on generalizing s with
  | _ m ih =>
    cases hr : s.st.isRest with
    | true => exact ⟨0, s, Nat.zero_le _, .zero s, (isRest_cases hr).resolve_left hidle⟩
    | false =>
      obtain ⟨t, ht⟩ := step_answers s
      have hs := stepped_of_step hq.command_eq_none ht
      obtain ⟨hlt, hne⟩ := hs.stepsLeft_lt hr
      have hlt' : stepsLeft t < m := hm ▸ hlt
      obtain ⟨k, u, hk, hu, hend⟩ := ih _ hlt' t (hq.afterHost.of_hostIn hs.hostIn_eq) hne rfl
      exact ⟨k + 1, u, hk.trans_lt hlt', .step ht hu, hend⟩

/-- Settles O59: START leaves OPEN, with that many steps left. -/
theorem everyTransferEndsWithinTheBound : Obligations.EveryTransferEndsWithinTheBound := by
  intro len addr term s s₁ hrest hq h
  rw [exec_start_of_rest hrest] at h
  cases h
  have hleft : stepsLeft (s.latch len addr term) = 4 * ((len.toNat + 1023) / 1024) + 4 + 3 := rfl
  obtain ⟨k, t, hk, ht, hend⟩ := ends_within_stepsLeft (s.latch len addr term) (hq.of_hostIn rfl) (by simp)
  exact ⟨k, t, by omega, ht, hend⟩

end Sys2Proof.Machine
end

section
/-! The transfer in which every answer is successful (43_transfer.md R133): the OPEN step and the announce exchange, the
data loop chunk by chunk, the final report and the terminate exchange. -/

namespace Sys2Proof.Machine

/-! ### Listed answers are the ones received -/

section Listed

variable {s : State}

theorem openAnswer_of_listed {a : OpenAnswer} {rest : List OpenAnswer} (h : s.openIn = a :: rest) :
    s.openAnswer = a ∧ s.afterOpen = { s with openIn := rest } := by
  simp [State.openAnswer, State.afterOpen, h]

theorem txAnswer_of_listed {a : WriteAnswer} {rest : List WriteAnswer} (h : s.txIn = a :: rest) :
    s.txAnswer = a ∧ s.afterTx = { s with txIn := rest } := by
  simp [State.txAnswer, State.afterTx, h]

theorem rxAnswer_of_listed {a : RxAnswer} {rest : List RxAnswer} (h : s.rxIn = a :: rest) :
    s.rxAnswer = a ∧ s.afterRx = { s with rxIn := rest } := by
  simp [State.rxAnswer, State.afterRx, h]

end Listed

/-! ### The successful steps -/

/-- The state a successful OPEN step leaves (43_transfer.md R122). -/
def State.withAnnounce (os : List OpenAnswer) (s : State) : State :=
  { s with
    st := .aSend, hostIn := s.hostIn.tail, openIn := os, trace := s.trace ++ [.opened .ok]
    frameBuf := announceFrame s.reqLength s.reqAddress ++ s.frameBuf.drop 14, frameLen := 14 }

theorem withAnnounce_frame (os : List OpenAnswer) (s : State) :
    (s.withAnnounce os).frame = announceFrame s.reqLength s.reqAddress :=
  Stores.frame (s := s) ⟨rfl, rfl⟩

/-- The state the end of the loop leaves (R124). -/
def State.atEnd (s : State) : State := { s with st := .fReport, hostIn := s.hostIn.tail }

/-- The state the final report leaves when the terminate frame is asked for (R129). -/
def State.withTerminate (s : State) : State :=
  { s with
    st := .tSend, hostIn := s.hostIn.tail, trace := s.trace ++ [.progress 100]
    frameBuf := terminateFrame (lo8 (s.frameNumber + 1)) ++ s.frameBuf.drop 5, frameLen := 5 }

theorem withTerminate_frame (s : State) : s.withTerminate.frame = terminateFrame (lo8 (s.frameNumber + 1)) :=
  Stores.frame (s := s) ⟨rfl, rfl⟩

section Steps

variable {s : State} (hq : Quiet s)
include hq

theorem step_open_ok (hs : s.st = .opening) {os : List OpenAnswer} (h : s.openIn = .ok :: os) :
    step s = .next (s.withAnnounce os) := by
  obtain ⟨ha, hafter⟩ := openAnswer_of_listed (s := s.afterHost) h
  rw [step_opening hs hq.command_eq_none, openStep_ok (s := s.afterHost) hs ha, hafter]
  rfl

theorem step_send_ok {w : St} (hw : s.st.afterSend = some w) {ws : List WriteAnswer} (h : s.txIn = .ok :: ws) :
    step s = .next { s with
      st := w, hostIn := s.hostIn.tail, txIn := ws, trace := s.trace ++ [.tx s.frame .ok] } := by
  obtain ⟨ha, hafter⟩ := txAnswer_of_listed (s := s.afterHost) h
  rw [step_send hw hq.command_eq_none, transmit_ok (s := s.afterHost) hw _ ha, hafter]
  rfl

theorem step_wait_ok {n : St} (hn : s.st.afterAck = some n) {xs : List RxAnswer} (h : s.rxIn = .byte 0xAA :: xs) :
    step s = .next { s with
      st := n, hostIn := s.hostIn.tail, rxIn := xs, trace := s.trace ++ [.rx (.byte 0xAA), .purgeIn, .purgeOut] } := by
  obtain ⟨ha, hafter⟩ := rxAnswer_of_listed (s := s.afterHost) h
  have hn' : s.afterHost.afterRx.st.afterAck = some n := by rwa [State.afterRx_st]
  have ha' : s.rxAnswer = .byte 0xAA := ha
  rw [step_wait hn hq.command_eq_none, ha', receive_ackOk hn', hafter]
  rfl

/-- One acknowledged frame (42_handshake.md R110). -/
theorem reaches_exchange {w n : St} (hw : s.st.afterSend = some w) (hn : w.afterAck = some n)
    {ws : List WriteAnswer} {xs : List RxAnswer} (htx : s.txIn = .ok :: ws) (hrx : s.rxIn = .byte 0xAA :: xs) :
    Reaches 2 s { s with
      st := n, hostIn := s.hostIn.tail.tail, txIn := ws, rxIn := xs, trace := s.trace ++ ackedFrame s.frame } := by
  refine .step (step_send_ok hq hw htx) (.one ((step_wait_ok (n := n) (xs := xs) ?_ ?_ ?_).trans ?_))
  · exact hq.afterHost.of_hostIn rfl
  · exact hn
  · exact hrx
  · rw [List.append_assoc]
    rfl

/-- The events of the cadence report (43_transfer.md R126, R127). -/
def cadenceEvents (fn fc : Nat) : List Event := if cadence fn fc then [.progress (pct fn fc)] else []

omit hq in
theorem cadenceReport_eq : cadenceReport s =
    { s with st := .dRead, trace := s.trace ++ cadenceEvents s.frameNumber.toNat s.frameCount.toNat } := by
  by_cases hk : cadence s.frameNumber.toNat s.frameCount.toNat = true
  · rw [cadenceReport_of_cadence hk, cadenceEvents, if_pos hk]
  · rw [cadenceReport_of_not_cadence hk, cadenceEvents, if_neg hk, List.append_nil]

theorem step_report (hs : s.st = .dReport) : step s = .next { s with
    st := .dRead, hostIn := s.hostIn.tail
    trace := s.trace ++ cadenceEvents s.frameNumber.toNat s.frameCount.toNat } := by
  rw [step_dReport hs hq.command_eq_none, cadenceReport_eq]
  rfl

theorem step_end (hs : s.st = .dRead) (hr : s.remaining = 0) : step s = .next s.atEnd := by
  rw [step_dRead hs hq.command_eq_none, readChunk_end (s := s.afterHost) hs hr]
  rfl

theorem step_final_term (hs : s.st = .fReport) (hterm : s.reqTerm = true) : step s = .next s.withTerminate := by
  rw [step_fReport hs hq.command_eq_none, finalReport_of_term (s := s.afterHost) hterm]
  rfl

theorem step_final_done (hs : s.st = .fReport) (hterm : s.reqTerm = false) :
    step s = .next { s with st := .done, hostIn := s.hostIn.tail, trace := s.trace ++ [.progress 100] } := by
  rw [step_fReport hs hq.command_eq_none, finalReport_of_no_term (s := s.afterHost) hterm]
  rfl

end Steps

/-! ### Chunkings (20_memory.md R51) -/

theorem IsChunking.nil {len : Nat} (h : IsChunking len []) : len = 0 := by
  obtain ⟨hcount, -⟩ := h
  rw [List.length_nil] at hcount
  omega

theorem IsChunking.head {len : Nat} {c : ByteStr} {cs : List ByteStr} (h : IsChunking len (c :: cs)) :
    0 < len ∧ c.length = min 1024 len := by
  obtain ⟨hcount, hlen⟩ := h
  rw [List.length_cons] at hcount
  exact ⟨by omega, hlen 0 c rfl⟩

theorem IsChunking.tail {len : Nat} {c : ByteStr} {cs : List ByteStr} (h : IsChunking len (c :: cs)) :
    IsChunking (len - min 1024 len) cs := by
  obtain ⟨hcount, hlen⟩ := h
  rw [List.length_cons] at hcount
  refine ⟨by omega, fun k d hd => ?_⟩
  rw [hlen (k + 1) d hd]
  omega

/-! ### The data loop -/

/-- The state a chunk read leaves (43_transfer.md R124). -/
def State.withChunk (c : ByteStr) (rest : List ReadAnswer) (s : State) : State :=
  { s with
    st := .dSend, hostIn := s.hostIn.tail, readIn := rest
    frameNumber := s.frameNumber + 1
    remaining := s.remaining - BitVec.ofNat 32 (chunkLen s.remaining)
    frameBuf := withChecksum (dataBody (lo8 (s.frameNumber + 1)) c) ++ s.frameBuf.drop (5 + chunkLen s.remaining)
    frameLen := 5 + chunkLen s.remaining
    trace := s.trace ++ [.read (chunkLen s.remaining) (.data c)] }

theorem step_chunk {s : State} (hq : Quiet s) (hs : s.st = .dRead) (hr : s.remaining ≠ 0) {c : ByteStr}
    {rest : List ReadAnswer} (h : s.readIn = .data c :: rest) (hc : c.length = chunkLen s.remaining) :
    step s = .next (s.withChunk c rest) := by
  have ha : s.afterHost.readAnswer (chunkLen s.remaining) = .data c :=
    (readAnswer_of_listed h _).trans (conformRead_of_length hc)
  rw [step_dRead hs hq.command_eq_none, readChunk_data (s := s.afterHost) hs hr ha,
    afterRead_of_listed (s := s.afterHost) h]
  rfl

theorem withChunk_frame {s : State} {c : ByteStr} (rest : List ReadAnswer) (hc : c.length = chunkLen s.remaining) :
    (s.withChunk c rest).frame = withChecksum (dataBody (lo8 (s.frameNumber + 1)) c) :=
  Stores.frame (s := s) (stores_dataFrame (by rw [hc]; rfl) (by rw [hc]; rfl))

/-- In `D_READ` with the chunks `cs` still to come and every answer to them successful; `os`, `rs`, `ws` and `xs` are
the answers after them. -/
structure InLoop (cs : List ByteStr) (os : List OpenAnswer) (rs : List ReadAnswer) (ws : List WriteAnswer)
    (xs : List RxAnswer) (s : State) : Prop where
  st : s.st = .dRead
  quiet : Quiet s
  chunking : IsChunking s.remaining.toNat cs
  count : s.frameNumber.toNat + cs.length = s.frameCount.toNat
  faultCode : s.faultCode = 0
  openIn : s.openIn = os
  readIn : s.readIn = cs.map .data ++ rs
  txIn : s.txIn = List.replicate cs.length .ok ++ ws
  rxIn : s.rxIn = List.replicate cs.length (.byte 0xAA) ++ xs

section Loop

variable {cs : List ByteStr} {os : List OpenAnswer} {rs : List ReadAnswer} {ws : List WriteAnswer} {xs : List RxAnswer}
  {s : State}

theorem InLoop.frameNumber_succ {c : ByteStr} (h : InLoop (c :: cs) os rs ws xs s) :
    (s.frameNumber + 1).toNat = s.frameNumber.toNat + 1 := by
  have hcount := h.count
  have hfc := s.frameCount.isLt
  rw [List.length_cons] at hcount
  simp only [BitVec.toNat_add, BitVec.ofNat_eq_ofNat, BitVec.toNat_ofNat]
  omega

theorem lo8_eq_ofNat {v : Word} {n : Nat} (h : v.toNat = n) : lo8 v = BitVec.ofNat 8 n := by
  apply BitVec.eq_of_toNat_eq
  rw [lo8_toNat, h, BitVec.toNat_ofNat]

/-- The events of one turn of the data loop, for frame `k`. -/
def chunkEvents (fc k : Nat) (c : ByteStr) : List Event :=
  .read c.length (.data c) :: ackedFrame (withChecksum (dataBody (BitVec.ofNat 8 k) c)) ++ cadenceEvents k fc

theorem dataLoop_cons {fc : Nat} (hfc : 0 < fc) (k : Nat) (c : ByteStr) (cs : List ByteStr) :
    dataLoop fc k (c :: cs) = chunkEvents fc k c ++ dataLoop fc (k + 1) cs := by
  simp only [dataLoop, chunkEvents, cadenceEvents, cadence_iff, pct_of_pos hfc, List.append_assoc, List.cons_append]

/-- One turn of the loop: read, exchange, report. -/
theorem InLoop.turn {c : ByteStr} (h : InLoop (c :: cs) os rs ws xs s) :
    ∃ t, Reaches 4 s t ∧ InLoop cs os rs ws xs t ∧ t.frameNumber.toNat = s.frameNumber.toNat + 1 ∧
      t.frameCount = s.frameCount ∧ t.reqTerm = s.reqTerm ∧
      t.trace = s.trace ++ chunkEvents s.frameCount.toNat (s.frameNumber.toNat + 1) c := by
  obtain ⟨hpos, hlen⟩ := h.chunking.head
  have hr : s.remaining ≠ 0 := fun h0 => by simp [h0] at hpos
  have hsucc := h.frameNumber_succ
  have htx : s.txIn = .ok :: (List.replicate cs.length .ok ++ ws) := h.txIn
  have hrx : s.rxIn = .byte 0xAA :: (List.replicate cs.length (.byte 0xAA) ++ xs) := h.rxIn
  have hin : s.readIn = .data c :: (cs.map .data ++ rs) := h.readIn
  have hq₁ : Quiet (s.withChunk c (cs.map .data ++ rs)) := h.quiet.afterHost.of_hostIn rfl
  have hq₃ := hq₁.afterHost.afterHost
  have hexchange := reaches_exchange (w := .dWait) (n := .dReport) hq₁ rfl rfl htx hrx
  rw [withChunk_frame _ hlen, lo8_eq_ofNat hsucc] at hexchange
  have hrem : (s.remaining - BitVec.ofNat 32 (chunkLen s.remaining)).toNat =
      s.remaining.toNat - min 1024 s.remaining.toNat := sub_chunkLen_toNat s.remaining
  have hcount : (s.frameNumber + 1).toNat + cs.length = s.frameCount.toNat := by
    rw [hsucc, ← h.count, List.length_cons]
    omega
  refine ⟨_, .step (step_chunk h.quiet h.st hr hin hlen)
    (hexchange.trans (.one (step_report (hq₃.of_hostIn rfl) rfl))),
    ⟨rfl, hq₃.afterHost.of_hostIn rfl, hrem ▸ h.chunking.tail, hcount, h.faultCode, h.openIn, rfl, rfl, rfl⟩,
    hsucc, rfl, rfl, ?_⟩
  simp only [State.withChunk, hsucc, chunkEvents, hlen, chunkLen_eq, List.append_assoc, List.cons_append,
    List.nil_append]

/-- The whole loop, turn by turn. -/
theorem InLoop.run_out (h : InLoop cs os rs ws xs s) :
    ∃ t, Reaches (4 * cs.length) s t ∧ InLoop [] os rs ws xs t ∧ t.frameCount = s.frameCount ∧ t.reqTerm = s.reqTerm ∧
      t.trace = s.trace ++ dataLoop s.frameCount.toNat (s.frameNumber.toNat + 1) cs := by
  induction cs generalizing s with
  | nil => exact ⟨s, .zero s, h, rfl, rfl, (List.append_nil _).symm⟩
  | cons c cs ih =>
    have hfc : 0 < s.frameCount.toNat := by
      rw [← h.count, List.length_cons]
      omega
    obtain ⟨t, hst, ht, hfn, hfc_t, hterm, htrace⟩ := h.turn
    obtain ⟨u, htu, hu, hfc_u, hterm_u, htrace_u⟩ := ih ht
    refine ⟨u, ?_, hu, hfc_u.trans hfc_t, hterm_u.trans hterm, ?_⟩
    · rw [List.length_cons, Nat.mul_add, Nat.add_comm]
      exact hst.trans htu
    · rw [htrace_u, htrace, hfc_t, hfn, dataLoop_cons hfc, List.append_assoc]

end Loop

/-! ### The beginning and the end of a transfer -/

/-- START's state to the loop: the source opened, the announce frame acknowledged. -/
theorem reaches_loop {s : State} (hq : Quiet s) (hs : s.st = .opening) {cs : List ByteStr} {os : List OpenAnswer}
    {rs : List ReadAnswer} {ws : List WriteAnswer} {xs : List RxAnswer} (hchunks : IsChunking s.remaining.toNat cs)
    (hcount : s.frameNumber.toNat + cs.length = s.frameCount.toNat) (hfault : s.faultCode = 0)
    (hopen : s.openIn = .ok :: os) (hread : s.readIn = cs.map .data ++ rs)
    (htx : s.txIn = .ok :: (List.replicate cs.length .ok ++ ws))
    (hrx : s.rxIn = .byte 0xAA :: (List.replicate cs.length (.byte 0xAA) ++ xs)) :
    ∃ t, Reaches 3 s t ∧ InLoop cs os rs ws xs t ∧ t.frameNumber = s.frameNumber ∧ t.frameCount = s.frameCount ∧
      t.reqTerm = s.reqTerm ∧
      t.trace = s.trace ++ .opened .ok :: ackedFrame (withChecksum (announceBody s.reqLength s.reqAddress)) := by
  have hq₁ : Quiet (s.withAnnounce os) := hq.afterHost.of_hostIn rfl
  have hexchange := reaches_exchange (w := .aWait) (n := .dRead) hq₁ rfl rfl htx hrx
  rw [withAnnounce_frame] at hexchange
  refine ⟨_, .step (step_open_ok hq hs hopen) hexchange, ⟨rfl, hq₁.afterHost.afterHost.of_hostIn rfl, hchunks, hcount,
    hfault, rfl, hread, rfl, rfl⟩, rfl, rfl, rfl, ?_⟩
  exact List.append_assoc _ _ _

/-- A transfer that has ended in success (43_transfer.md R133). -/
structure Succeeded (n : Nat) (os : List OpenAnswer) (rs : List ReadAnswer) (ws : List WriteAnswer)
    (xs : List RxAnswer) (t : State) : Prop where
  st : t.st = .done
  frameNumber : t.frameNumber.toNat = n
  frameCount : t.frameCount.toNat = n
  remaining : t.remaining = 0
  faultCode : t.faultCode = 0
  openIn : t.openIn = os
  readIn : t.readIn = rs
  txIn : t.txIn = ws
  rxIn : t.rxIn = xs

section End

variable {os : List OpenAnswer} {rs : List ReadAnswer} {ws : List WriteAnswer} {xs : List RxAnswer} {s : State}

theorem InLoop.remaining_eq_zero (h : InLoop [] os rs ws xs s) : s.remaining = 0 :=
  BitVec.eq_of_toNat_eq h.chunking.nil

/-- Without the terminate frame the final report ends the transfer. -/
theorem InLoop.finish (h : InLoop [] os rs ws xs s) (hterm : s.reqTerm = false) :
    ∃ t, Reaches 2 s t ∧ Succeeded s.frameCount.toNat os rs ws xs t ∧ t.trace = s.trace ++ [.progress 100] := by
  have hq : Quiet s.atEnd := h.quiet.afterHost.of_hostIn rfl
  exact ⟨_, .step (step_end h.quiet h.st h.remaining_eq_zero) (.one (step_final_done hq rfl hterm)),
    ⟨rfl, h.count, rfl, h.remaining_eq_zero, h.faultCode, h.openIn, h.readIn, h.txIn, h.rxIn⟩, rfl⟩

/-- With it, the terminate frame is sent and acknowledged. -/
theorem InLoop.finish_term (h : InLoop [] os rs (.ok :: ws) (.byte 0xAA :: xs) s) (hterm : s.reqTerm = true) :
    ∃ t, Reaches 4 s t ∧ Succeeded s.frameCount.toNat os rs ws xs t ∧ t.trace = s.trace ++ .progress 100 ::
      ackedFrame (withChecksum (terminateBody (lo8 (s.frameNumber + 1)))) := by
  have hq : Quiet s.atEnd := h.quiet.afterHost.of_hostIn rfl
  have hq₁ : Quiet s.atEnd.withTerminate := hq.afterHost.of_hostIn rfl
  have hexchange := reaches_exchange (w := .tWait) (n := .done) hq₁ rfl rfl h.txIn h.rxIn
  rw [withTerminate_frame] at hexchange
  refine ⟨_, .step (step_end h.quiet h.st h.remaining_eq_zero) (.step (step_final_term hq rfl hterm) hexchange),
    ⟨rfl, h.count, rfl, h.remaining_eq_zero, h.faultCode, h.openIn, h.readIn, rfl, rfl⟩, ?_⟩
  exact List.append_assoc _ _ _

/-- The end of a transfer, with as many exchanges to come as the flag asks for. -/
theorem InLoop.finishes (h : InLoop [] os rs (List.replicate (if s.reqTerm then 1 else 0) .ok ++ ws)
      (List.replicate (if s.reqTerm then 1 else 0) (.byte 0xAA) ++ xs) s) :
    ∃ t, Reaches (2 + if s.reqTerm then 2 else 0) s t ∧ Succeeded s.frameCount.toNat os rs ws xs t ∧
      t.trace = s.trace ++ .progress 100 ::
        if s.reqTerm then ackedFrame (withChecksum (terminateBody (lo8 (s.frameNumber + 1)))) else [] := by
  by_cases hterm : s.reqTerm = true
  · simp only [if_pos hterm] at h ⊢
    exact h.finish_term hterm
  · simp only [if_neg hterm] at h ⊢
    exact h.finish (Bool.eq_false_of_not_eq_true hterm)

end End

/-- Settles O60: the announce exchange, the loop, and the end of the transfer, one after the other. -/
theorem successfulTransferHasExactlyItsTrace : Obligations.SuccessfulTransferHasExactlyItsTrace := by
  intro len addr term cs s os rs ws xs hrest hq hchunks hopen hread htx hrx
  rw [Nat.add_assoc, Nat.add_comm 1, List.replicate_succ, List.cons_append, List.replicate_add, List.append_assoc]
    at htx hrx
  have hcount : (frameCountOf len).toNat = cs.length := by rw [frameCountOf_toNat, hchunks.1]
  obtain ⟨s₂, h₁₂, hloop, hfn, hfc, hterm, htrace⟩ := reaches_loop (s := s.latch len addr term) (hq.of_hostIn rfl) rfl
    hchunks (by simp [hcount]) rfl hopen hread htx hrx
  obtain ⟨s₃, h₂₃, hend, hfc₃, hterm₃, htrace₃⟩ := hloop.run_out
  have hfc' : s₃.frameCount.toNat = cs.length := by rw [hfc₃, hfc]; exact hcount
  have htrace' : s₃.trace = s.trace ++ .start len addr term :: .opened .ok ::
      ackedFrame (withChecksum (announceBody len addr)) ++ dataLoop cs.length 1 cs := by
    rw [htrace₃, htrace, hfc, hfn]
    simp [hcount]
  have hsucc₃ : (s₃.frameNumber + 1).toNat = cs.length + 1 := by
    have hfn₃ : s₃.frameNumber.toNat = cs.length := hend.count.trans hfc'
    have hlen := len.isLt
    rw [frameCountOf_toNat] at hcount
    simp only [BitVec.toNat_add, BitVec.ofNat_eq_ofNat, BitVec.toNat_ofNat]
    omega
  have hflag : s₃.reqTerm = term := hterm₃.trans hterm
  subst hflag
  obtain ⟨t, h₃, hsucc, ht⟩ := hend.finishes
  rw [hfc'] at hsucc
  refine ⟨_, t, exec_start_of_rest hrest len addr _, ?_, hsucc.st, ?_, hsucc.frameNumber, hsucc.frameCount,
    hsucc.remaining, hsucc.faultCode, hsucc.openIn, hsucc.readIn, hsucc.txIn, hsucc.rxIn⟩
  · have hall := (h₁₂.trans h₂₃).trans h₃
    rwa [show 3 + 4 * cs.length + (2 + if s₃.reqTerm then 2 else 0) =
      5 + 4 * cs.length + if s₃.reqTerm then 2 else 0 by omega] at hall
  · rw [ht, htrace', lo8_eq_ofNat hsucc₃]
    simp [successTrace]

end Sys2Proof.Machine
end
